-- ==== Sys2Proof/Word.lean ====
section
/-! DEFINITION. The word types of the machine (00_scope.md R16, R7). -/

namespace Sys2Proof

/-- 8 bits (R16). -/
abbrev Byte := BitVec 8

/-- "media palabra", 16 bits (R16). -/
abbrev Half := BitVec 16

/-- "palabra", 32 bits (R16): a general register, a floating-point register, an address, an instruction. -/
abbrev Word := BitVec 32

/-- "doble palabra", 64 bits (R16): the value of an even-odd pair of floating-point registers (R37). -/
abbrev DWord := BitVec 64

end Sys2Proof
end

