-- ==== Sys2Proof/Syntax.lean ====
section
/-! DEFINITION. The instructions of the machine: one constructor per row of spec/opcode_table.json, operands in
the order of the source's assembly text, named by the fields of the word they stand in (00_scope.md R22). -/

namespace Sys2Proof

/-- The number of a general register (10_state.md R30), a 5-bit field. -/
abbrev GReg := BitVec 5

/-- The number of a single floating-point register (10_state.md R36), a 5-bit field. -/
abbrev FReg := BitVec 5

/-- The number of a double pair, named by its even register (10_state.md R37), a 5-bit field. `wellFormed` asks
that it is even (R38). -/
abbrev DReg := BitVec 5

/-- The number of a special register in MOVI2S and MOVS2I, a 5-bit field (40_data_transfer.md R147, R148). The
source numbers none (10_state.md R41). -/
abbrev SReg := BitVec 5

/-- The 16-bit immediate field of format I (30_encoding.md R92). -/
abbrev Imm16 := BitVec 16

/-- The 26-bit field of format J (30_encoding.md R93). -/
abbrev Off26 := BitVec 26

/-- The six relations of the set-conditional and compare instructions (42_logical.md R195,
44_floating_point.md R254). -/
inductive Rel where
  | eq | ne | lt | gt | le | ge
  deriving DecidableEq, Repr

/-- An instruction term (00_scope.md R24): a mnemonic with its field values. -/
inductive Instr where
  -- Data transfer (40_data_transfer.md)
  /-- `LB`, R131 -/
  | lb (rd rs1 : GReg) (imm16 : Imm16)
  /-- `LBU`, R132 -/
  | lbu (rd rs1 : GReg) (imm16 : Imm16)
  /-- `LH`, R133 -/
  | lh (rd rs1 : GReg) (imm16 : Imm16)
  /-- `LHU`, R134 -/
  | lhu (rd rs1 : GReg) (imm16 : Imm16)
  /-- `LW`, R135 -/
  | lw (rd rs1 : GReg) (imm16 : Imm16)
  /-- `LF`, R136 -/
  | lf (rd : FReg) (rs1 : GReg) (imm16 : Imm16)
  /-- `LD`, R137 -/
  | ld (rd : DReg) (rs1 : GReg) (imm16 : Imm16)
  /-- `SB`, R138 -/
  | sb (rs1 : GReg) (imm16 : Imm16) (rd : GReg)
  /-- `SH`, R139 -/
  | sh (rs1 : GReg) (imm16 : Imm16) (rd : GReg)
  /-- `SW`, R140 -/
  | sw (rs1 : GReg) (imm16 : Imm16) (rd : GReg)
  /-- `SF`, R141 -/
  | sf (rs1 : GReg) (imm16 : Imm16) (rd : FReg)
  /-- `SD`, R142 -/
  | sd (rs1 : GReg) (imm16 : Imm16) (rd : DReg)
  /-- `MOVI2FP`, R143 -/
  | movi2fp (rd : FReg) (rs1 : GReg)
  /-- `MOVFP2I`, R144 -/
  | movfp2i (rd : GReg) (rs1 : FReg)
  /-- `MOVF`, R145 -/
  | movf (rd rs1 : FReg)
  /-- `MOVD`, R146 -/
  | movd (rd rs1 : DReg)
  /-- `MOVI2S`, R147 -/
  | movi2s (rd : SReg) (rs1 : GReg)
  /-- `MOVS2I`, R148 -/
  | movs2i (rd : GReg) (rs1 : SReg)
  -- Integer arithmetic (41_arithmetic.md)
  /-- `ADD`, R165 -/
  | add (rd rs1 rs2 : GReg)
  /-- `ADDI`, R166 -/
  | addi (rd rs1 : GReg) (imm16 : Imm16)
  /-- `ADDU`, R167 -/
  | addu (rd rs1 rs2 : GReg)
  /-- `ADDUI`, R168 -/
  | addui (rd rs1 : GReg) (imm16 : Imm16)
  /-- `SUB`, R169 -/
  | sub (rd rs1 rs2 : GReg)
  /-- `SUBI`, R170 -/
  | subi (rd rs1 : GReg) (imm16 : Imm16)
  /-- `SUBU`, R171 -/
  | subu (rd rs1 rs2 : GReg)
  /-- `SUBUI`, R172 -/
  | subui (rd rs1 : GReg) (imm16 : Imm16)
  /-- `MULT`, R173 -/
  | mult (rd rs1 rs2 : GReg)
  /-- `MULTU`, R174 -/
  | multu (rd rs1 rs2 : GReg)
  /-- `DIV`, R175 -/
  | div (rd rs1 rs2 : GReg)
  /-- `DIVU`, R176 -/
  | divu (rd rs1 rs2 : GReg)
  -- Logic, shifts, set-conditional, NOP (42_logical.md)
  /-- `AND`, R181 -/
  | and (rd rs1 rs2 : GReg)
  /-- `ANDI`, R182 -/
  | andi (rd rs1 : GReg) (imm16 : Imm16)
  /-- `OR`, R183 -/
  | or (rd rs1 rs2 : GReg)
  /-- `ORI`, R184 -/
  | ori (rd rs1 : GReg) (imm16 : Imm16)
  /-- `XOR`, R185 -/
  | xor (rd rs1 rs2 : GReg)
  /-- `XORI`, R186 -/
  | xori (rd rs1 : GReg) (imm16 : Imm16)
  /-- `LHI`, R187 -/
  | lhi (rd : GReg) (imm16 : Imm16)
  /-- `SLL`, R189 -/
  | sll (rd rs1 rs2 : GReg)
  /-- `SRL`, R190 -/
  | srl (rd rs1 rs2 : GReg)
  /-- `SRA`, R191 -/
  | sra (rd rs1 rs2 : GReg)
  /-- `SLLI`, R192 -/
  | slli (rd rs1 : GReg) (imm16 : Imm16)
  /-- `SRLI`, R193 -/
  | srli (rd rs1 : GReg) (imm16 : Imm16)
  /-- `SRAI`, R194 -/
  | srai (rd rs1 : GReg) (imm16 : Imm16)
  /-- `SEQ`, R196 -/
  | seq (rd rs1 rs2 : GReg)
  /-- `SNE`, R197 -/
  | sne (rd rs1 rs2 : GReg)
  /-- `SLT`, R198 -/
  | slt (rd rs1 rs2 : GReg)
  /-- `SGT`, R199 -/
  | sgt (rd rs1 rs2 : GReg)
  /-- `SLE`, R200 -/
  | sle (rd rs1 rs2 : GReg)
  /-- `SGE`, R201 -/
  | sge (rd rs1 rs2 : GReg)
  /-- `SEQI`, R202 -/
  | seqi (rd rs1 : GReg) (imm16 : Imm16)
  /-- `SNEI`, R203 -/
  | snei (rd rs1 : GReg) (imm16 : Imm16)
  /-- `SLTI`, R204 -/
  | slti (rd rs1 : GReg) (imm16 : Imm16)
  /-- `SGTI`, R205 -/
  | sgti (rd rs1 : GReg) (imm16 : Imm16)
  /-- `SLEI`, R206 -/
  | slei (rd rs1 : GReg) (imm16 : Imm16)
  /-- `SGEI`, R207 -/
  | sgei (rd rs1 : GReg) (imm16 : Imm16)
  /-- `SEQU`, R208 -/
  | sequ (rd rs1 rs2 : GReg)
  /-- `SNEU`, R209 -/
  | sneu (rd rs1 rs2 : GReg)
  /-- `SLTU`, R210 -/
  | sltu (rd rs1 rs2 : GReg)
  /-- `SGTU`, R211 -/
  | sgtu (rd rs1 rs2 : GReg)
  /-- `SLEU`, R212 -/
  | sleu (rd rs1 rs2 : GReg)
  /-- `SGEU`, R213 -/
  | sgeu (rd rs1 rs2 : GReg)
  /-- `SEQUI`, R214 -/
  | sequi (rd rs1 : GReg) (imm16 : Imm16)
  /-- `SNEUI`, R215 -/
  | sneui (rd rs1 : GReg) (imm16 : Imm16)
  /-- `SLTUI`, R216 -/
  | sltui (rd rs1 : GReg) (imm16 : Imm16)
  /-- `SGTUI`, R217 -/
  | sgtui (rd rs1 : GReg) (imm16 : Imm16)
  /-- `SLEUI`, R218 -/
  | sleui (rd rs1 : GReg) (imm16 : Imm16)
  /-- `SGEUI`, R219 -/
  | sgeui (rd rs1 : GReg) (imm16 : Imm16)
  /-- `NOP`, R222 -/
  | nop
  -- Control (43_control.md)
  /-- `BEQZ`, R235 -/
  | beqz (rs1 : GReg) (imm16 : Imm16)
  /-- `BNEZ`, R236 -/
  | bnez (rs1 : GReg) (imm16 : Imm16)
  /-- `BFPT`, R237 -/
  | bfpt (imm16 : Imm16)
  /-- `BFPF`, R238 -/
  | bfpf (imm16 : Imm16)
  /-- `J`, R239 -/
  | j (off26 : Off26)
  /-- `JR`, R240 -/
  | jr (rs1 : GReg)
  /-- `JAL`, R241 -/
  | jal (off26 : Off26)
  /-- `JALR`, R242 -/
  | jalr (rs1 : GReg)
  /-- `TRAP`, R243 -/
  | trap (off26 : Off26)
  /-- `RFE`, R244 -/
  | rfe (off26 : Off26)
  -- Floating point (44_floating_point.md)
  /-- `ADDD`, R256 -/
  | addd (rd rs1 rs2 : DReg)
  /-- `ADDF`, R257 -/
  | addf (rd rs1 rs2 : FReg)
  /-- `SUBD`, R258 -/
  | subd (rd rs1 rs2 : DReg)
  /-- `SUBF`, R259 -/
  | subf (rd rs1 rs2 : FReg)
  /-- `MULTD`, R260 -/
  | multd (rd rs1 rs2 : DReg)
  /-- `MULTF`, R261 -/
  | multf (rd rs1 rs2 : FReg)
  /-- `DIVD`, R262 -/
  | divd (rd rs1 rs2 : DReg)
  /-- `DIVF`, R263 -/
  | divf (rd rs1 rs2 : FReg)
  /-- `CVTF2D`, R264 -/
  | cvtf2d (rd : DReg) (rs1 : FReg)
  /-- `CVTD2F`, R265 -/
  | cvtd2f (rd : FReg) (rs1 : DReg)
  /-- `CVTF2I`, R266 -/
  | cvtf2i (rd rs1 : FReg)
  /-- `CVTI2F`, R267 -/
  | cvti2f (rd rs1 : FReg)
  /-- `CVTD2I`, R268 -/
  | cvtd2i (rd : FReg) (rs1 : DReg)
  /-- `CVTI2D`, R269 -/
  | cvti2d (rd : DReg) (rs1 : FReg)
  /-- `EQD`, R270 -/
  | eqd (rs1 rs2 : DReg)
  /-- `NED`, R271 -/
  | ned (rs1 rs2 : DReg)
  /-- `LTD`, R272 -/
  | ltd (rs1 rs2 : DReg)
  /-- `GTD`, R273 -/
  | gtd (rs1 rs2 : DReg)
  /-- `LED`, R274 -/
  | led (rs1 rs2 : DReg)
  /-- `GED`, R275 -/
  | ged (rs1 rs2 : DReg)
  /-- `EQF`, R276 -/
  | eqf (rs1 rs2 : FReg)
  /-- `NEF`, R277 -/
  | nef (rs1 rs2 : FReg)
  /-- `LTF`, R278 -/
  | ltf (rs1 rs2 : FReg)
  /-- `GTF`, R279 -/
  | gtf (rs1 rs2 : FReg)
  /-- `LEF`, R280 -/
  | lef (rs1 rs2 : FReg)
  /-- `GEF`, R281 -/
  | gef (rs1 rs2 : FReg)
  deriving DecidableEq, Repr

end Sys2Proof
end

