-- ==== Sys2Proof/Config.lean ====
section
/-! DEFINITION. What is fixed for a run: the parameters of 00_scope.md R8 to R15 as plain data,
their default values, and the free values of the model (opaque constants: nothing can evaluate them). -/

namespace Sys2Proof.Config

/-- OVF_POLICY (00_scope.md R11): what ADD, ADDI, SUB, SUBI, MULT and DIV do when the exact signed result does
not fit in 32 bits. -/
inductive OvfPolicy where
  /-- raise IntegerOverflow and write nothing (the default) -/
  | fault
  /-- write the low 32 bits of the exact result -/
  | wrap
  deriving DecidableEq, Repr

/-- UNWRITTEN_READ (00_scope.md R15), for bytes of memory: what a load of a byte that nothing has written answers.
Registers follow `any` always (log 2). -/
inductive UnwrittenRead where
  /-- the read faults with UnwrittenRead (the default) -/
  | fault
  /-- the read returns an arbitrary value drawn once at reset -/
  | any
  deriving DecidableEq, Repr

/-- Whether the host supplies TRAP_HANDLER (00_scope.md R14; log 12). -/
inductive TrapPolicy where
  /-- undefined everywhere (the default): TRAP n, n not 0, raises UnhandledTrap -/
  | undefined
  /-- the host's partial function `Config.trapHandler` -/
  | host
  deriving DecidableEq, Repr

/-- The number of an operation: the op field alone, or the op field of a group with the func field (30_encoding.md
R98 to R100). -/
inductive OpCode where
  | primary (op : BitVec 6)
  | grouped (op : BitVec 6) (func : BitVec 11)
  deriving DecidableEq, Repr

/-- A line of ENC: the number that stands for a mnemonic, the mnemonic being named by the number the default ENC gives
it (30_encoding.md R98 to R100). -/
structure EncLine where
  code : OpCode
  standard : OpCode
  deriving DecidableEq, Repr

/-- ENC (00_scope.md R12): which number stands for which mnemonic. Which tables are an ENC is `encLegal`. -/
inductive Enc where
  /-- the default, 30_encoding.md R98 to R100 (log 1) -/
  | standard
  /-- any other assignment, line by line -/
  | table (lines : List EncLine)
  deriving DecidableEq, Repr

/-- Which numerics record is FP (00_scope.md R13). -/
inductive FpPolicy where
  /-- IEEE 754 with round-to-nearest-even (the default, 44_floating_point.md R250 to R254; log 8) -/
  | ieee754
  /-- the host's record `Config.hostFp`, of which nothing is known -/
  | host
  deriving DecidableEq, Repr

/-- The numerics record FP (00_scope.md R13): functions of their operands alone. `none` is a result left to a draw: a
NaN (44_floating_point.md R252) or, of a conversion to integer, any pattern (R254). -/
structure FpRecord where
  faddS : Word → Word → Option Word
  fsubS : Word → Word → Option Word
  fmulS : Word → Word → Option Word
  fdivS : Word → Word → Option Word
  faddD : DWord → DWord → Option DWord
  fsubD : DWord → DWord → Option DWord
  fmulD : DWord → DWord → Option DWord
  fdivD : DWord → DWord → Option DWord
  cvtS2D : Word → Option DWord
  cvtD2S : DWord → Option Word
  cvtS2I : Word → Option Word
  cvtD2I : DWord → Option Word
  cvtI2S : Word → Word
  cvtI2D : Word → DWord
  fcmpS : Rel → Word → Word → Bool
  fcmpD : Rel → DWord → DWord → Bool
  deriving Inhabited

/-- The byte addresses base .. base + size - 1. -/
structure Region where
  base : Nat
  size : Nat
  deriving DecidableEq, Repr

/-- The parameters of a run that are plain data. No step changes them (10_state.md R44; log 13). -/
structure Params where
  /-- MEM_MAP (R8): the byte addresses backed by memory -/
  memMap : List Region
  /-- TEXT (R9): the byte addresses that hold the loaded program's instructions -/
  text : List Region
  /-- OVF_POLICY (R11) -/
  ovfPolicy : OvfPolicy
  /-- UNWRITTEN_READ (R15), for memory -/
  unwrittenRead : UnwrittenRead
  /-- ENTRY (R10): the pc at reset -/
  entry : Word
  /-- ENC (R12) -/
  enc : Enc
  /-- FP (R13) -/
  fp : FpPolicy
  /-- whether TRAP_HANDLER (R14) is supplied -/
  trapHandler : TrapPolicy
  deriving DecidableEq, Repr

/-- TEXT_BASE (00_scope.md R9), PRESUMED (log 5): the default the spec marks as general knowledge. -/
def textBase : Word := 0x100#32

/-- DATA_BASE (00_scope.md R9), PRESUMED (log 5): where the assembler starts the data section. -/
def dataBase : Word := 0x1000#32

/-- MEM_MAP's customary value 0x0000 .. 0x7FFF (00_scope.md R8), PRESUMED (log 4). -/
def defaultMemMap : List Region := [⟨0x0000, 0x8000⟩]

/-- The spec's defaults (R8 to R15), no program loaded (log 6). ENTRY is by default TEXT_BASE (R10; log 5). -/
def Params.default : Params where
  memMap := defaultMemMap
  text := []
  ovfPolicy := .fault
  unwrittenRead := .fault
  entry := textBase
  enc := .standard
  fp := .ieee754
  trapHandler := .undefined

/-- The parameters of assembling (45_assembler.md R290): TEXT_BASE, DATA_BASE (00_scope.md R9) and ENC (R12). -/
structure AsmParams where
  textBase : Word
  dataBase : Word
  enc : Enc
  deriving DecidableEq, Repr

/-- The spec's defaults for assembling (log 1, log 5). -/
def AsmParams.default : AsmParams := ⟨Config.textBase, Config.dataBase, .standard⟩

/-- DESIGN CHOICE, safe (log 3): under UNWRITTEN_READ = any, the byte drawn once at reset for an address that
nothing has written (R15). -/
opaque unwrittenByte : Nat → Byte

/-- DESIGN CHOICE, safe (log 9): the n-th draw, for the single-precision NaN of 44_floating_point.md R252. -/
opaque nanSingle : Nat → Word

/-- DESIGN CHOICE, safe (log 9): the n-th draw, for the double-precision NaN of 44_floating_point.md R252. -/
opaque nanDouble : Nat → DWord

/-- DESIGN CHOICE, safe (log 10): the n-th draw, for a conversion to integer that has no value (R254). -/
opaque convertDraw : Nat → Word

/-- DESIGN CHOICE, safe (log 8): FP where the host supplies it (00_scope.md R13). Nothing is known of it but that each
function depends on its operands alone. -/
opaque hostFp : FpRecord

end Sys2Proof.Config
end

