-- ==== Sys2Proof/WellFormed.lean ====
section
/-! DEFINITION. Which instruction terms stand for a word: every field has its width by its type, and every double
pair is named by an even number (10_state.md R37, R38, 30_encoding.md R104 step 5). -/

namespace Sys2Proof

/-- The number names a double pair: it is even (10_state.md R38). -/
def isPair (r : DReg) : Bool := r.toNat % 2 == 0

/-- The term is one that a word of 30_encoding.md R104 decodes to. -/
def Instr.wellFormed : Instr → Bool
  | .lb _ _ _ => true
  | .lbu _ _ _ => true
  | .lh _ _ _ => true
  | .lhu _ _ _ => true
  | .lw _ _ _ => true
  | .lf _ _ _ => true
  | .ld rd _ _ => isPair rd
  | .sb _ _ _ => true
  | .sh _ _ _ => true
  | .sw _ _ _ => true
  | .sf _ _ _ => true
  | .sd _ _ rd => isPair rd
  | .movi2fp _ _ => true
  | .movfp2i _ _ => true
  | .movf _ _ => true
  | .movd rd rs1 => isPair rd && isPair rs1
  | .movi2s _ _ => true
  | .movs2i _ _ => true
  | .add _ _ _ => true
  | .addi _ _ _ => true
  | .addu _ _ _ => true
  | .addui _ _ _ => true
  | .sub _ _ _ => true
  | .subi _ _ _ => true
  | .subu _ _ _ => true
  | .subui _ _ _ => true
  | .mult _ _ _ => true
  | .multu _ _ _ => true
  | .div _ _ _ => true
  | .divu _ _ _ => true
  | .and _ _ _ => true
  | .andi _ _ _ => true
  | .or _ _ _ => true
  | .ori _ _ _ => true
  | .xor _ _ _ => true
  | .xori _ _ _ => true
  | .lhi _ _ => true
  | .sll _ _ _ => true
  | .srl _ _ _ => true
  | .sra _ _ _ => true
  | .slli _ _ _ => true
  | .srli _ _ _ => true
  | .srai _ _ _ => true
  | .seq _ _ _ => true
  | .sne _ _ _ => true
  | .slt _ _ _ => true
  | .sgt _ _ _ => true
  | .sle _ _ _ => true
  | .sge _ _ _ => true
  | .seqi _ _ _ => true
  | .snei _ _ _ => true
  | .slti _ _ _ => true
  | .sgti _ _ _ => true
  | .slei _ _ _ => true
  | .sgei _ _ _ => true
  | .sequ _ _ _ => true
  | .sneu _ _ _ => true
  | .sltu _ _ _ => true
  | .sgtu _ _ _ => true
  | .sleu _ _ _ => true
  | .sgeu _ _ _ => true
  | .sequi _ _ _ => true
  | .sneui _ _ _ => true
  | .sltui _ _ _ => true
  | .sgtui _ _ _ => true
  | .sleui _ _ _ => true
  | .sgeui _ _ _ => true
  | .nop => true
  | .beqz _ _ => true
  | .bnez _ _ => true
  | .bfpt _ => true
  | .bfpf _ => true
  | .j _ => true
  | .jr _ => true
  | .jal _ => true
  | .jalr _ => true
  | .trap _ => true
  | .rfe _ => true
  | .addd rd rs1 rs2 => isPair rd && isPair rs1 && isPair rs2
  | .addf _ _ _ => true
  | .subd rd rs1 rs2 => isPair rd && isPair rs1 && isPair rs2
  | .subf _ _ _ => true
  | .multd rd rs1 rs2 => isPair rd && isPair rs1 && isPair rs2
  | .multf _ _ _ => true
  | .divd rd rs1 rs2 => isPair rd && isPair rs1 && isPair rs2
  | .divf _ _ _ => true
  | .cvtf2d rd _ => isPair rd
  | .cvtd2f _ rs1 => isPair rs1
  | .cvtf2i _ _ => true
  | .cvti2f _ _ => true
  | .cvtd2i _ rs1 => isPair rs1
  | .cvti2d rd _ => isPair rd
  | .eqd rs1 rs2 => isPair rs1 && isPair rs2
  | .ned rs1 rs2 => isPair rs1 && isPair rs2
  | .ltd rs1 rs2 => isPair rs1 && isPair rs2
  | .gtd rs1 rs2 => isPair rs1 && isPair rs2
  | .led rs1 rs2 => isPair rs1 && isPair rs2
  | .ged rs1 rs2 => isPair rs1 && isPair rs2
  | .eqf _ _ => true
  | .nef _ _ => true
  | .ltf _ _ => true
  | .gtf _ _ => true
  | .lef _ _ => true
  | .gef _ _ => true

end Sys2Proof
end

