-- ==== Sys2Proof/Decode.lean ====
section
/-! DEFINITION. Decoding a word to an instruction term (30_encoding.md R104), total and rejecting by name, and the
encoder, its inverse (R107): under the default ENC of R98 to R100 (log 1) first, then under any ENC (00_scope.md
R12), and the mask and match form of the default one. -/

namespace Sys2Proof

/-- Why a word is no instruction (30_encoding.md R105). The step raises IllegalInstruction for each. -/
inductive DecodeError where
  /-- step 3 of R104: the op or func value is unassigned -/
  | unassigned
  /-- step 4 of R104: a field R103 requires to be zero is not -/
  | unusedField
  /-- step 5 of R104: an odd number in a field used as a double pair -/
  | oddPair
  /-- fewer than the four bytes of an instruction (R90) -/
  | truncated
  deriving DecidableEq, Repr

/-! ### Byte order (20_memory.md R61) -/

/-- The value of a list of bytes, most significant first. -/
def beValue (k : Nat) (bs : List Byte) : BitVec k :=
  bs.foldl (fun acc b => (acc <<< 8) ||| b.setWidth k) 0#k

/-- The n low bytes of a value, most significant first. -/
def beBytes {k : Nat} : Nat → BitVec k → List Byte
  | 0, _ => []
  | n + 1, v => (v >>> (8 * n)).setWidth 8 :: beBytes n v

/-! ### The fields of a word (30_encoding.md R91 to R93) -/

/-- `op = w[31:26]`, every format. -/
def opField (w : Word) : BitVec 6 := w.extractLsb' 26 6
/-- `rs1 = w[25:21]`, formats R and I. -/
def rs1Field (w : Word) : BitVec 5 := w.extractLsb' 21 5
/-- `rs2 = w[20:16]`, format R. -/
def rs2Field (w : Word) : BitVec 5 := w.extractLsb' 16 5
/-- `rd = w[15:11]`, format R. -/
def rdFieldR (w : Word) : BitVec 5 := w.extractLsb' 11 5
/-- `func = w[10:0]`, format R. -/
def funcField (w : Word) : BitVec 11 := w.extractLsb' 0 11
/-- `rd = w[20:16]`, format I. -/
def rdFieldI (w : Word) : BitVec 5 := w.extractLsb' 16 5
/-- `imm16 = w[15:0]`, format I. -/
def imm16Field (w : Word) : Imm16 := w.extractLsb' 0 16
/-- `off26 = w[25:0]`, format J. -/
def off26Field (w : Word) : Off26 := w.extractLsb' 0 26

/-- Steps 4 to 6 of 30_encoding.md R104 for a term whose unused fields are `unused` (all must be zero, R103) and
whose double-pair fields are `pairs` (the low bit of each must be 0, step 5). -/
def accept (unused pairs : List (BitVec 5)) (i : Instr) : Except DecodeError Instr :=
  if unused.all (· == 0#5) then
    if pairs.all (fun r => !r.getLsbD 0) then .ok i else .error .oddPair
  else .error .unusedField

/-- The SPECIAL group, op 0x00: func values of 30_encoding.md R99. -/
def decodeSpecial (w : Word) : Except DecodeError Instr :=
  match funcField w with
  | 0x000#11 => accept [rs1Field w, rs2Field w, rdFieldR w] [] .nop
  | 0x004#11 => accept [] [] (.sll (rdFieldR w) (rs1Field w) (rs2Field w))
  | 0x006#11 => accept [] [] (.srl (rdFieldR w) (rs1Field w) (rs2Field w))
  | 0x007#11 => accept [] [] (.sra (rdFieldR w) (rs1Field w) (rs2Field w))
  | 0x010#11 => accept [] [] (.sequ (rdFieldR w) (rs1Field w) (rs2Field w))
  | 0x011#11 => accept [] [] (.sneu (rdFieldR w) (rs1Field w) (rs2Field w))
  | 0x012#11 => accept [] [] (.sltu (rdFieldR w) (rs1Field w) (rs2Field w))
  | 0x013#11 => accept [] [] (.sgtu (rdFieldR w) (rs1Field w) (rs2Field w))
  | 0x014#11 => accept [] [] (.sleu (rdFieldR w) (rs1Field w) (rs2Field w))
  | 0x015#11 => accept [] [] (.sgeu (rdFieldR w) (rs1Field w) (rs2Field w))
  | 0x020#11 => accept [] [] (.add (rdFieldR w) (rs1Field w) (rs2Field w))
  | 0x021#11 => accept [] [] (.addu (rdFieldR w) (rs1Field w) (rs2Field w))
  | 0x022#11 => accept [] [] (.sub (rdFieldR w) (rs1Field w) (rs2Field w))
  | 0x023#11 => accept [] [] (.subu (rdFieldR w) (rs1Field w) (rs2Field w))
  | 0x024#11 => accept [] [] (.and (rdFieldR w) (rs1Field w) (rs2Field w))
  | 0x025#11 => accept [] [] (.or (rdFieldR w) (rs1Field w) (rs2Field w))
  | 0x026#11 => accept [] [] (.xor (rdFieldR w) (rs1Field w) (rs2Field w))
  | 0x028#11 => accept [] [] (.seq (rdFieldR w) (rs1Field w) (rs2Field w))
  | 0x029#11 => accept [] [] (.sne (rdFieldR w) (rs1Field w) (rs2Field w))
  | 0x02A#11 => accept [] [] (.slt (rdFieldR w) (rs1Field w) (rs2Field w))
  | 0x02B#11 => accept [] [] (.sgt (rdFieldR w) (rs1Field w) (rs2Field w))
  | 0x02C#11 => accept [] [] (.sle (rdFieldR w) (rs1Field w) (rs2Field w))
  | 0x02D#11 => accept [] [] (.sge (rdFieldR w) (rs1Field w) (rs2Field w))
  | 0x030#11 => accept [rs2Field w] [] (.movi2s (rdFieldR w) (rs1Field w))
  | 0x031#11 => accept [rs2Field w] [] (.movs2i (rdFieldR w) (rs1Field w))
  | 0x032#11 => accept [rs2Field w] [] (.movf (rdFieldR w) (rs1Field w))
  | 0x033#11 => accept [rs2Field w] [rdFieldR w, rs1Field w] (.movd (rdFieldR w) (rs1Field w))
  | 0x034#11 => accept [rs2Field w] [] (.movfp2i (rdFieldR w) (rs1Field w))
  | 0x035#11 => accept [rs2Field w] [] (.movi2fp (rdFieldR w) (rs1Field w))
  | _ => .error .unassigned

/-- The FPARITH group, op 0x01: func values of 30_encoding.md R100. -/
def decodeFparith (w : Word) : Except DecodeError Instr :=
  match funcField w with
  | 0x000#11 => accept [] [] (.addf (rdFieldR w) (rs1Field w) (rs2Field w))
  | 0x001#11 => accept [] [] (.subf (rdFieldR w) (rs1Field w) (rs2Field w))
  | 0x002#11 => accept [] [] (.multf (rdFieldR w) (rs1Field w) (rs2Field w))
  | 0x003#11 => accept [] [] (.divf (rdFieldR w) (rs1Field w) (rs2Field w))
  | 0x004#11 => accept [] [rdFieldR w, rs1Field w, rs2Field w] (.addd (rdFieldR w) (rs1Field w) (rs2Field w))
  | 0x005#11 => accept [] [rdFieldR w, rs1Field w, rs2Field w] (.subd (rdFieldR w) (rs1Field w) (rs2Field w))
  | 0x006#11 => accept [] [rdFieldR w, rs1Field w, rs2Field w] (.multd (rdFieldR w) (rs1Field w) (rs2Field w))
  | 0x007#11 => accept [] [rdFieldR w, rs1Field w, rs2Field w] (.divd (rdFieldR w) (rs1Field w) (rs2Field w))
  | 0x008#11 => accept [rs2Field w] [rdFieldR w] (.cvtf2d (rdFieldR w) (rs1Field w))
  | 0x009#11 => accept [rs2Field w] [] (.cvtf2i (rdFieldR w) (rs1Field w))
  | 0x00A#11 => accept [rs2Field w] [rs1Field w] (.cvtd2f (rdFieldR w) (rs1Field w))
  | 0x00B#11 => accept [rs2Field w] [rs1Field w] (.cvtd2i (rdFieldR w) (rs1Field w))
  | 0x00C#11 => accept [rs2Field w] [] (.cvti2f (rdFieldR w) (rs1Field w))
  | 0x00D#11 => accept [rs2Field w] [rdFieldR w] (.cvti2d (rdFieldR w) (rs1Field w))
  | 0x00E#11 => accept [] [] (.mult (rdFieldR w) (rs1Field w) (rs2Field w))
  | 0x00F#11 => accept [] [] (.div (rdFieldR w) (rs1Field w) (rs2Field w))
  | 0x010#11 => accept [rdFieldR w] [] (.eqf (rs1Field w) (rs2Field w))
  | 0x011#11 => accept [rdFieldR w] [] (.nef (rs1Field w) (rs2Field w))
  | 0x012#11 => accept [rdFieldR w] [] (.ltf (rs1Field w) (rs2Field w))
  | 0x013#11 => accept [rdFieldR w] [] (.gtf (rs1Field w) (rs2Field w))
  | 0x014#11 => accept [rdFieldR w] [] (.lef (rs1Field w) (rs2Field w))
  | 0x015#11 => accept [rdFieldR w] [] (.gef (rs1Field w) (rs2Field w))
  | 0x016#11 => accept [] [] (.multu (rdFieldR w) (rs1Field w) (rs2Field w))
  | 0x017#11 => accept [] [] (.divu (rdFieldR w) (rs1Field w) (rs2Field w))
  | 0x018#11 => accept [rdFieldR w] [rs1Field w, rs2Field w] (.eqd (rs1Field w) (rs2Field w))
  | 0x019#11 => accept [rdFieldR w] [rs1Field w, rs2Field w] (.ned (rs1Field w) (rs2Field w))
  | 0x01A#11 => accept [rdFieldR w] [rs1Field w, rs2Field w] (.ltd (rs1Field w) (rs2Field w))
  | 0x01B#11 => accept [rdFieldR w] [rs1Field w, rs2Field w] (.gtd (rs1Field w) (rs2Field w))
  | 0x01C#11 => accept [rdFieldR w] [rs1Field w, rs2Field w] (.led (rs1Field w) (rs2Field w))
  | 0x01D#11 => accept [rdFieldR w] [rs1Field w, rs2Field w] (.ged (rs1Field w) (rs2Field w))
  | _ => .error .unassigned

/-- The instruction a word stands for (30_encoding.md R104): primary opcodes of R98. -/
def decodeWord (w : Word) : Except DecodeError Instr :=
  match opField w with
  | 0x00#6 => decodeSpecial w
  | 0x01#6 => decodeFparith w
  | 0x02#6 => accept [] [] (.j (off26Field w))
  | 0x03#6 => accept [] [] (.jal (off26Field w))
  | 0x04#6 => accept [rdFieldI w] [] (.beqz (rs1Field w) (imm16Field w))
  | 0x05#6 => accept [rdFieldI w] [] (.bnez (rs1Field w) (imm16Field w))
  | 0x06#6 => accept [rs1Field w, rdFieldI w] [] (.bfpt (imm16Field w))
  | 0x07#6 => accept [rs1Field w, rdFieldI w] [] (.bfpf (imm16Field w))
  | 0x08#6 => accept [] [] (.addi (rdFieldI w) (rs1Field w) (imm16Field w))
  | 0x09#6 => accept [] [] (.addui (rdFieldI w) (rs1Field w) (imm16Field w))
  | 0x0A#6 => accept [] [] (.subi (rdFieldI w) (rs1Field w) (imm16Field w))
  | 0x0B#6 => accept [] [] (.subui (rdFieldI w) (rs1Field w) (imm16Field w))
  | 0x0C#6 => accept [] [] (.andi (rdFieldI w) (rs1Field w) (imm16Field w))
  | 0x0D#6 => accept [] [] (.ori (rdFieldI w) (rs1Field w) (imm16Field w))
  | 0x0E#6 => accept [] [] (.xori (rdFieldI w) (rs1Field w) (imm16Field w))
  | 0x0F#6 => accept [rs1Field w] [] (.lhi (rdFieldI w) (imm16Field w))
  | 0x10#6 => accept [] [] (.rfe (off26Field w))
  | 0x11#6 => accept [] [] (.trap (off26Field w))
  | 0x12#6 => if imm16Field w == 0#16 then accept [rdFieldI w] [] (.jr (rs1Field w)) else .error .unusedField
  | 0x13#6 => if imm16Field w == 0#16 then accept [rdFieldI w] [] (.jalr (rs1Field w)) else .error .unusedField
  | 0x14#6 => accept [] [] (.slli (rdFieldI w) (rs1Field w) (imm16Field w))
  | 0x16#6 => accept [] [] (.srli (rdFieldI w) (rs1Field w) (imm16Field w))
  | 0x17#6 => accept [] [] (.srai (rdFieldI w) (rs1Field w) (imm16Field w))
  | 0x18#6 => accept [] [] (.seqi (rdFieldI w) (rs1Field w) (imm16Field w))
  | 0x19#6 => accept [] [] (.snei (rdFieldI w) (rs1Field w) (imm16Field w))
  | 0x1A#6 => accept [] [] (.slti (rdFieldI w) (rs1Field w) (imm16Field w))
  | 0x1B#6 => accept [] [] (.sgti (rdFieldI w) (rs1Field w) (imm16Field w))
  | 0x1C#6 => accept [] [] (.slei (rdFieldI w) (rs1Field w) (imm16Field w))
  | 0x1D#6 => accept [] [] (.sgei (rdFieldI w) (rs1Field w) (imm16Field w))
  | 0x20#6 => accept [] [] (.lb (rdFieldI w) (rs1Field w) (imm16Field w))
  | 0x21#6 => accept [] [] (.lh (rdFieldI w) (rs1Field w) (imm16Field w))
  | 0x23#6 => accept [] [] (.lw (rdFieldI w) (rs1Field w) (imm16Field w))
  | 0x24#6 => accept [] [] (.lbu (rdFieldI w) (rs1Field w) (imm16Field w))
  | 0x25#6 => accept [] [] (.lhu (rdFieldI w) (rs1Field w) (imm16Field w))
  | 0x26#6 => accept [] [] (.lf (rdFieldI w) (rs1Field w) (imm16Field w))
  | 0x27#6 => accept [] [rdFieldI w] (.ld (rdFieldI w) (rs1Field w) (imm16Field w))
  | 0x28#6 => accept [] [] (.sb (rs1Field w) (imm16Field w) (rdFieldI w))
  | 0x29#6 => accept [] [] (.sh (rs1Field w) (imm16Field w) (rdFieldI w))
  | 0x2B#6 => accept [] [] (.sw (rs1Field w) (imm16Field w) (rdFieldI w))
  | 0x2E#6 => accept [] [] (.sf (rs1Field w) (imm16Field w) (rdFieldI w))
  | 0x2F#6 => accept [] [rdFieldI w] (.sd (rs1Field w) (imm16Field w) (rdFieldI w))
  | 0x30#6 => accept [] [] (.sequi (rdFieldI w) (rs1Field w) (imm16Field w))
  | 0x31#6 => accept [] [] (.sneui (rdFieldI w) (rs1Field w) (imm16Field w))
  | 0x32#6 => accept [] [] (.sltui (rdFieldI w) (rs1Field w) (imm16Field w))
  | 0x33#6 => accept [] [] (.sgtui (rdFieldI w) (rs1Field w) (imm16Field w))
  | 0x34#6 => accept [] [] (.sleui (rdFieldI w) (rs1Field w) (imm16Field w))
  | 0x35#6 => accept [] [] (.sgeui (rdFieldI w) (rs1Field w) (imm16Field w))
  | _ => .error .unassigned

/-- Decoding the four bytes of an instruction as they lie in memory, the opcode's byte first (20_memory.md R61), under
the default ENC; the rest of the list is given back. -/
def decodeBytes : List Byte → Except DecodeError (Instr × List Byte)
  | b0 :: b1 :: b2 :: b3 :: rest => (decodeWord (beValue 32 [b0, b1, b2, b3])).map (fun i => (i, rest))
  | _ => .error .truncated

/-- The instruction the decoder reads from an instruction whose bits are w, numbered as spec/opcode_table.json
numbers them; bits above nbits are 0. -/
def decodeTableWord (nbits w : Nat) : Option Instr :=
  match decodeBytes (beBytes 4 (BitVec.ofNat 32 (w % 2 ^ nbits))) with
  | .ok (i, _) => some i
  | .error _ => none

/-! ### Encoding (30_encoding.md R107) -/

/-- A word of format R (R91). -/
def packR (op : BitVec 6) (rs1 rs2 rd : BitVec 5) (func : BitVec 11) : Word := op ++ rs1 ++ rs2 ++ rd ++ func

/-- A word of format I (R92). -/
def packI (op : BitVec 6) (rs1 rd : BitVec 5) (imm16 : Imm16) : Word := op ++ rs1 ++ rd ++ imm16

/-- A word of format J (R93). -/
def packJ (op : BitVec 6) (off26 : Off26) : Word := op ++ off26

/-- The word of an instruction term: op and func of R98 to R100, the operands in their fields, zero in unused
fields (R103, R107). -/
def encode : Instr → Word
  | .lb rd rs1 imm16 => packI 0x20#6 rs1 rd imm16
  | .lbu rd rs1 imm16 => packI 0x24#6 rs1 rd imm16
  | .lh rd rs1 imm16 => packI 0x21#6 rs1 rd imm16
  | .lhu rd rs1 imm16 => packI 0x25#6 rs1 rd imm16
  | .lw rd rs1 imm16 => packI 0x23#6 rs1 rd imm16
  | .lf rd rs1 imm16 => packI 0x26#6 rs1 rd imm16
  | .ld rd rs1 imm16 => packI 0x27#6 rs1 rd imm16
  | .sb rs1 imm16 rd => packI 0x28#6 rs1 rd imm16
  | .sh rs1 imm16 rd => packI 0x29#6 rs1 rd imm16
  | .sw rs1 imm16 rd => packI 0x2B#6 rs1 rd imm16
  | .sf rs1 imm16 rd => packI 0x2E#6 rs1 rd imm16
  | .sd rs1 imm16 rd => packI 0x2F#6 rs1 rd imm16
  | .movi2fp rd rs1 => packR 0x00#6 rs1 0#5 rd 0x035#11
  | .movfp2i rd rs1 => packR 0x00#6 rs1 0#5 rd 0x034#11
  | .movf rd rs1 => packR 0x00#6 rs1 0#5 rd 0x032#11
  | .movd rd rs1 => packR 0x00#6 rs1 0#5 rd 0x033#11
  | .movi2s rd rs1 => packR 0x00#6 rs1 0#5 rd 0x030#11
  | .movs2i rd rs1 => packR 0x00#6 rs1 0#5 rd 0x031#11
  | .add rd rs1 rs2 => packR 0x00#6 rs1 rs2 rd 0x020#11
  | .addi rd rs1 imm16 => packI 0x08#6 rs1 rd imm16
  | .addu rd rs1 rs2 => packR 0x00#6 rs1 rs2 rd 0x021#11
  | .addui rd rs1 imm16 => packI 0x09#6 rs1 rd imm16
  | .sub rd rs1 rs2 => packR 0x00#6 rs1 rs2 rd 0x022#11
  | .subi rd rs1 imm16 => packI 0x0A#6 rs1 rd imm16
  | .subu rd rs1 rs2 => packR 0x00#6 rs1 rs2 rd 0x023#11
  | .subui rd rs1 imm16 => packI 0x0B#6 rs1 rd imm16
  | .mult rd rs1 rs2 => packR 0x01#6 rs1 rs2 rd 0x00E#11
  | .multu rd rs1 rs2 => packR 0x01#6 rs1 rs2 rd 0x016#11
  | .div rd rs1 rs2 => packR 0x01#6 rs1 rs2 rd 0x00F#11
  | .divu rd rs1 rs2 => packR 0x01#6 rs1 rs2 rd 0x017#11
  | .and rd rs1 rs2 => packR 0x00#6 rs1 rs2 rd 0x024#11
  | .andi rd rs1 imm16 => packI 0x0C#6 rs1 rd imm16
  | .or rd rs1 rs2 => packR 0x00#6 rs1 rs2 rd 0x025#11
  | .ori rd rs1 imm16 => packI 0x0D#6 rs1 rd imm16
  | .xor rd rs1 rs2 => packR 0x00#6 rs1 rs2 rd 0x026#11
  | .xori rd rs1 imm16 => packI 0x0E#6 rs1 rd imm16
  | .lhi rd imm16 => packI 0x0F#6 0#5 rd imm16
  | .sll rd rs1 rs2 => packR 0x00#6 rs1 rs2 rd 0x004#11
  | .srl rd rs1 rs2 => packR 0x00#6 rs1 rs2 rd 0x006#11
  | .sra rd rs1 rs2 => packR 0x00#6 rs1 rs2 rd 0x007#11
  | .slli rd rs1 imm16 => packI 0x14#6 rs1 rd imm16
  | .srli rd rs1 imm16 => packI 0x16#6 rs1 rd imm16
  | .srai rd rs1 imm16 => packI 0x17#6 rs1 rd imm16
  | .seq rd rs1 rs2 => packR 0x00#6 rs1 rs2 rd 0x028#11
  | .sne rd rs1 rs2 => packR 0x00#6 rs1 rs2 rd 0x029#11
  | .slt rd rs1 rs2 => packR 0x00#6 rs1 rs2 rd 0x02A#11
  | .sgt rd rs1 rs2 => packR 0x00#6 rs1 rs2 rd 0x02B#11
  | .sle rd rs1 rs2 => packR 0x00#6 rs1 rs2 rd 0x02C#11
  | .sge rd rs1 rs2 => packR 0x00#6 rs1 rs2 rd 0x02D#11
  | .seqi rd rs1 imm16 => packI 0x18#6 rs1 rd imm16
  | .snei rd rs1 imm16 => packI 0x19#6 rs1 rd imm16
  | .slti rd rs1 imm16 => packI 0x1A#6 rs1 rd imm16
  | .sgti rd rs1 imm16 => packI 0x1B#6 rs1 rd imm16
  | .slei rd rs1 imm16 => packI 0x1C#6 rs1 rd imm16
  | .sgei rd rs1 imm16 => packI 0x1D#6 rs1 rd imm16
  | .sequ rd rs1 rs2 => packR 0x00#6 rs1 rs2 rd 0x010#11
  | .sneu rd rs1 rs2 => packR 0x00#6 rs1 rs2 rd 0x011#11
  | .sltu rd rs1 rs2 => packR 0x00#6 rs1 rs2 rd 0x012#11
  | .sgtu rd rs1 rs2 => packR 0x00#6 rs1 rs2 rd 0x013#11
  | .sleu rd rs1 rs2 => packR 0x00#6 rs1 rs2 rd 0x014#11
  | .sgeu rd rs1 rs2 => packR 0x00#6 rs1 rs2 rd 0x015#11
  | .sequi rd rs1 imm16 => packI 0x30#6 rs1 rd imm16
  | .sneui rd rs1 imm16 => packI 0x31#6 rs1 rd imm16
  | .sltui rd rs1 imm16 => packI 0x32#6 rs1 rd imm16
  | .sgtui rd rs1 imm16 => packI 0x33#6 rs1 rd imm16
  | .sleui rd rs1 imm16 => packI 0x34#6 rs1 rd imm16
  | .sgeui rd rs1 imm16 => packI 0x35#6 rs1 rd imm16
  | .nop => packR 0x00#6 0#5 0#5 0#5 0x000#11
  | .beqz rs1 imm16 => packI 0x04#6 rs1 0#5 imm16
  | .bnez rs1 imm16 => packI 0x05#6 rs1 0#5 imm16
  | .bfpt imm16 => packI 0x06#6 0#5 0#5 imm16
  | .bfpf imm16 => packI 0x07#6 0#5 0#5 imm16
  | .j off26 => packJ 0x02#6 off26
  | .jr rs1 => packI 0x12#6 rs1 0#5 0#16
  | .jal off26 => packJ 0x03#6 off26
  | .jalr rs1 => packI 0x13#6 rs1 0#5 0#16
  | .trap off26 => packJ 0x11#6 off26
  | .rfe off26 => packJ 0x10#6 off26
  | .addd rd rs1 rs2 => packR 0x01#6 rs1 rs2 rd 0x004#11
  | .addf rd rs1 rs2 => packR 0x01#6 rs1 rs2 rd 0x000#11
  | .subd rd rs1 rs2 => packR 0x01#6 rs1 rs2 rd 0x005#11
  | .subf rd rs1 rs2 => packR 0x01#6 rs1 rs2 rd 0x001#11
  | .multd rd rs1 rs2 => packR 0x01#6 rs1 rs2 rd 0x006#11
  | .multf rd rs1 rs2 => packR 0x01#6 rs1 rs2 rd 0x002#11
  | .divd rd rs1 rs2 => packR 0x01#6 rs1 rs2 rd 0x007#11
  | .divf rd rs1 rs2 => packR 0x01#6 rs1 rs2 rd 0x003#11
  | .cvtf2d rd rs1 => packR 0x01#6 rs1 0#5 rd 0x008#11
  | .cvtd2f rd rs1 => packR 0x01#6 rs1 0#5 rd 0x00A#11
  | .cvtf2i rd rs1 => packR 0x01#6 rs1 0#5 rd 0x009#11
  | .cvti2f rd rs1 => packR 0x01#6 rs1 0#5 rd 0x00C#11
  | .cvtd2i rd rs1 => packR 0x01#6 rs1 0#5 rd 0x00B#11
  | .cvti2d rd rs1 => packR 0x01#6 rs1 0#5 rd 0x00D#11
  | .eqd rs1 rs2 => packR 0x01#6 rs1 rs2 0#5 0x018#11
  | .ned rs1 rs2 => packR 0x01#6 rs1 rs2 0#5 0x019#11
  | .ltd rs1 rs2 => packR 0x01#6 rs1 rs2 0#5 0x01A#11
  | .gtd rs1 rs2 => packR 0x01#6 rs1 rs2 0#5 0x01B#11
  | .led rs1 rs2 => packR 0x01#6 rs1 rs2 0#5 0x01C#11
  | .ged rs1 rs2 => packR 0x01#6 rs1 rs2 0#5 0x01D#11
  | .eqf rs1 rs2 => packR 0x01#6 rs1 rs2 0#5 0x010#11
  | .nef rs1 rs2 => packR 0x01#6 rs1 rs2 0#5 0x011#11
  | .ltf rs1 rs2 => packR 0x01#6 rs1 rs2 0#5 0x012#11
  | .gtf rs1 rs2 => packR 0x01#6 rs1 rs2 0#5 0x013#11
  | .lef rs1 rs2 => packR 0x01#6 rs1 rs2 0#5 0x014#11
  | .gef rs1 rs2 => packR 0x01#6 rs1 rs2 0#5 0x015#11

/-- The four bytes of an instruction as they lie in memory (20_memory.md R61). -/
def encodeBytes (i : Instr) : List Byte := beBytes 4 (encode i)

/-! ### The mask and match form (30_encoding.md R104) -/

/-- A row of opcode_table.json: "a word `w` is the row's instruction exactly when `w AND mask = match`" (R104). -/
structure OpcodeRow where
  mnemonic : String
  mask : Word
  bits : Word
  deriving DecidableEq, Repr

/-- The rows of data transfer (40_data_transfer.md). -/
def rowsData : List OpcodeRow :=
  [⟨"LB", 0xFC000000, 0x80000000⟩, ⟨"LBU", 0xFC000000, 0x90000000⟩, ⟨"LH", 0xFC000000, 0x84000000⟩,
   ⟨"LHU", 0xFC000000, 0x94000000⟩, ⟨"LW", 0xFC000000, 0x8C000000⟩, ⟨"LF", 0xFC000000, 0x98000000⟩,
   ⟨"LD", 0xFC010000, 0x9C000000⟩, ⟨"SB", 0xFC000000, 0xA0000000⟩, ⟨"SH", 0xFC000000, 0xA4000000⟩,
   ⟨"SW", 0xFC000000, 0xAC000000⟩, ⟨"SF", 0xFC000000, 0xB8000000⟩, ⟨"SD", 0xFC010000, 0xBC000000⟩,
   ⟨"MOVI2FP", 0xFC1F07FF, 0x00000035⟩, ⟨"MOVFP2I", 0xFC1F07FF, 0x00000034⟩, ⟨"MOVF", 0xFC1F07FF, 0x00000032⟩,
   ⟨"MOVD", 0xFC3F0FFF, 0x00000033⟩, ⟨"MOVI2S", 0xFC1F07FF, 0x00000030⟩, ⟨"MOVS2I", 0xFC1F07FF, 0x00000031⟩]

/-- The rows of arithmetic (41_arithmetic.md). -/
def rowsArithmetic : List OpcodeRow :=
  [⟨"ADD", 0xFC0007FF, 0x00000020⟩, ⟨"ADDI", 0xFC000000, 0x20000000⟩, ⟨"ADDU", 0xFC0007FF, 0x00000021⟩,
   ⟨"ADDUI", 0xFC000000, 0x24000000⟩, ⟨"SUB", 0xFC0007FF, 0x00000022⟩, ⟨"SUBI", 0xFC000000, 0x28000000⟩,
   ⟨"SUBU", 0xFC0007FF, 0x00000023⟩, ⟨"SUBUI", 0xFC000000, 0x2C000000⟩, ⟨"MULT", 0xFC0007FF, 0x0400000E⟩,
   ⟨"MULTU", 0xFC0007FF, 0x04000016⟩, ⟨"DIV", 0xFC0007FF, 0x0400000F⟩, ⟨"DIVU", 0xFC0007FF, 0x04000017⟩]

/-- The rows of logic, shifts, sets, NOP (42_logical.md). -/
def rowsLogical : List OpcodeRow :=
  [⟨"AND", 0xFC0007FF, 0x00000024⟩, ⟨"ANDI", 0xFC000000, 0x30000000⟩, ⟨"OR", 0xFC0007FF, 0x00000025⟩,
   ⟨"ORI", 0xFC000000, 0x34000000⟩, ⟨"XOR", 0xFC0007FF, 0x00000026⟩, ⟨"XORI", 0xFC000000, 0x38000000⟩,
   ⟨"LHI", 0xFFE00000, 0x3C000000⟩, ⟨"SLL", 0xFC0007FF, 0x00000004⟩, ⟨"SRL", 0xFC0007FF, 0x00000006⟩,
   ⟨"SRA", 0xFC0007FF, 0x00000007⟩, ⟨"SLLI", 0xFC000000, 0x50000000⟩, ⟨"SRLI", 0xFC000000, 0x58000000⟩,
   ⟨"SRAI", 0xFC000000, 0x5C000000⟩, ⟨"SEQ", 0xFC0007FF, 0x00000028⟩, ⟨"SNE", 0xFC0007FF, 0x00000029⟩,
   ⟨"SLT", 0xFC0007FF, 0x0000002A⟩, ⟨"SGT", 0xFC0007FF, 0x0000002B⟩, ⟨"SLE", 0xFC0007FF, 0x0000002C⟩,
   ⟨"SGE", 0xFC0007FF, 0x0000002D⟩, ⟨"SEQI", 0xFC000000, 0x60000000⟩, ⟨"SNEI", 0xFC000000, 0x64000000⟩,
   ⟨"SLTI", 0xFC000000, 0x68000000⟩, ⟨"SGTI", 0xFC000000, 0x6C000000⟩, ⟨"SLEI", 0xFC000000, 0x70000000⟩,
   ⟨"SGEI", 0xFC000000, 0x74000000⟩, ⟨"SEQU", 0xFC0007FF, 0x00000010⟩, ⟨"SNEU", 0xFC0007FF, 0x00000011⟩,
   ⟨"SLTU", 0xFC0007FF, 0x00000012⟩, ⟨"SGTU", 0xFC0007FF, 0x00000013⟩, ⟨"SLEU", 0xFC0007FF, 0x00000014⟩,
   ⟨"SGEU", 0xFC0007FF, 0x00000015⟩, ⟨"SEQUI", 0xFC000000, 0xC0000000⟩, ⟨"SNEUI", 0xFC000000, 0xC4000000⟩,
   ⟨"SLTUI", 0xFC000000, 0xC8000000⟩, ⟨"SGTUI", 0xFC000000, 0xCC000000⟩, ⟨"SLEUI", 0xFC000000, 0xD0000000⟩,
   ⟨"SGEUI", 0xFC000000, 0xD4000000⟩, ⟨"NOP", 0xFFFFFFFF, 0x00000000⟩]

/-- The rows of control (43_control.md). -/
def rowsControl : List OpcodeRow :=
  [⟨"BEQZ", 0xFC1F0000, 0x10000000⟩, ⟨"BNEZ", 0xFC1F0000, 0x14000000⟩, ⟨"BFPT", 0xFFFF0000, 0x18000000⟩,
   ⟨"BFPF", 0xFFFF0000, 0x1C000000⟩, ⟨"J", 0xFC000000, 0x08000000⟩, ⟨"JR", 0xFC1FFFFF, 0x48000000⟩,
   ⟨"JAL", 0xFC000000, 0x0C000000⟩, ⟨"JALR", 0xFC1FFFFF, 0x4C000000⟩, ⟨"TRAP", 0xFC000000, 0x44000000⟩,
   ⟨"RFE", 0xFC000000, 0x40000000⟩]

/-- The rows of floating point (44_floating_point.md). -/
def rowsFloat : List OpcodeRow :=
  [⟨"ADDD", 0xFC210FFF, 0x04000004⟩, ⟨"ADDF", 0xFC0007FF, 0x04000000⟩, ⟨"SUBD", 0xFC210FFF, 0x04000005⟩,
   ⟨"SUBF", 0xFC0007FF, 0x04000001⟩, ⟨"MULTD", 0xFC210FFF, 0x04000006⟩, ⟨"MULTF", 0xFC0007FF, 0x04000002⟩,
   ⟨"DIVD", 0xFC210FFF, 0x04000007⟩, ⟨"DIVF", 0xFC0007FF, 0x04000003⟩, ⟨"CVTF2D", 0xFC1F0FFF, 0x04000008⟩,
   ⟨"CVTD2F", 0xFC3F07FF, 0x0400000A⟩, ⟨"CVTF2I", 0xFC1F07FF, 0x04000009⟩, ⟨"CVTI2F", 0xFC1F07FF, 0x0400000C⟩,
   ⟨"CVTD2I", 0xFC3F07FF, 0x0400000B⟩, ⟨"CVTI2D", 0xFC1F0FFF, 0x0400000D⟩, ⟨"EQD", 0xFC21FFFF, 0x04000018⟩,
   ⟨"NED", 0xFC21FFFF, 0x04000019⟩, ⟨"LTD", 0xFC21FFFF, 0x0400001A⟩, ⟨"GTD", 0xFC21FFFF, 0x0400001B⟩,
   ⟨"LED", 0xFC21FFFF, 0x0400001C⟩, ⟨"GED", 0xFC21FFFF, 0x0400001D⟩, ⟨"EQF", 0xFC00FFFF, 0x04000010⟩,
   ⟨"NEF", 0xFC00FFFF, 0x04000011⟩, ⟨"LTF", 0xFC00FFFF, 0x04000012⟩, ⟨"GTF", 0xFC00FFFF, 0x04000013⟩,
   ⟨"LEF", 0xFC00FFFF, 0x04000014⟩, ⟨"GEF", 0xFC00FFFF, 0x04000015⟩]

/-- The rows of opcode_table.json. -/
def opcodeRows : List OpcodeRow := rowsData ++ rowsArithmetic ++ rowsLogical ++ rowsControl ++ rowsFloat

/-! ### Any ENC (00_scope.md R12)

A word under an ENC means what the word with its number replaced by the mnemonic's default number means under the
default ENC: the formats and fields are the same (30_encoding.md R91 to R94). -/

/-- The word bears the number. -/
def hasCode (c : Config.OpCode) (w : Word) : Bool :=
  match c with
  | .primary op => opField w == op
  | .grouped op func => opField w == op && funcField w == func

/-- The word with its number replaced, the other fields kept. -/
def putCode (c : Config.OpCode) (w : Word) : Word :=
  match c with
  | .primary op => packJ op (off26Field w)
  | .grouped op func => packR op (rs1Field w) (rs2Field w) (rdFieldR w) func

/-- The number of a word under the default ENC: op 0x00 and 0x01 are the groups (30_encoding.md R98). -/
def defaultCode (w : Word) : Config.OpCode :=
  if opField w = 0x00#6 ∨ opField w = 0x01#6 then .grouped (opField w) (funcField w) else .primary (opField w)

/-- No word bears both numbers. -/
def codesApart (c d : Config.OpCode) : Bool :=
  match c, d with
  | .primary a, .primary b => a != b
  | .primary a, .grouped b _ => a != b
  | .grouped a _, .primary b => a != b
  | .grouped a f, .grouped b g => a != b || f != g

/-- A line keeps the mnemonic's format (30_encoding.md R94), with the upper five bits of func zero (R103). -/
def lineKeepsFormat (l : Config.EncLine) : Bool :=
  match l.code, l.standard with
  | .primary _, .primary _ => true
  | .grouped _ func, .grouped _ _ => func.extractLsb' 6 5 == 0#5
  | _, _ => false

/-- The numbers the default ENC gives the 104 mnemonics. -/
def defaultCodes : List Config.OpCode := opcodeRows.map (fun r => defaultCode r.bits)

/-- The three lines the source fixes: ADD, LW, J (00_scope.md R12). -/
def fixedLines : List Config.EncLine :=
  [⟨.grouped 0x00#6 0x020#11, .grouped 0x00#6 0x020#11⟩, ⟨.primary 0x23#6, .primary 0x23#6⟩,
   ⟨.primary 0x02#6, .primary 0x02#6⟩]

/-- What an ENC is (00_scope.md R12, 92_eei_decisions.md D1): one number for each of the 104 mnemonics, no number for
two, the formats kept, and the three lines of the source. -/
def encLegal : Config.Enc → Bool
  | .standard => true
  | .table ls =>
    decide (ls.Pairwise (fun l k => codesApart l.code k.code = true)) && ls.all lineKeepsFormat &&
      decide ((ls.map (·.standard)).Perm defaultCodes) && fixedLines.all (fun l => decide (l ∈ ls))

/-- The word that means under the default ENC what the given one means under the ENC; none for a number that stands
for no mnemonic. -/
def toDefaultWord : Config.Enc → Word → Option Word
  | .standard, w => some w
  | .table ls, w => (ls.find? (fun (l : Config.EncLine) => hasCode l.code w)).map (fun l => putCode l.standard w)

/-- The word that means under the ENC what the given one means under the default; none where the ENC has no number
for the mnemonic, which no legal one does. -/
def fromDefaultWord : Config.Enc → Word → Option Word
  | .standard, w => some w
  | .table ls, w => (ls.find? (fun (l : Config.EncLine) => hasCode l.standard w)).map (fun l => putCode l.code w)

/-- The instruction a word stands for under an ENC (30_encoding.md R104). -/
def decodeWith (enc : Config.Enc) (w : Word) : Except DecodeError Instr :=
  match toDefaultWord enc w with
  | some v => decodeWord v
  | none => .error .unassigned

/-- The word of an instruction under an ENC (30_encoding.md R107). -/
def encodeWith (enc : Config.Enc) (i : Instr) : Option Word := fromDefaultWord enc (encode i)

/-- The four bytes of an instruction under an ENC, as they lie in memory (20_memory.md R61). -/
def encodeBytesWith (enc : Config.Enc) (i : Instr) : Option (List Byte) := (encodeWith enc i).map (beBytes 4)

/-- Decoding the four bytes of an instruction under an ENC; the rest of the list is given back. -/
def decodeBytesWith (enc : Config.Enc) : List Byte → Except DecodeError (Instr × List Byte)
  | b0 :: b1 :: b2 :: b3 :: rest => (decodeWith enc (beValue 32 [b0, b1, b2, b3])).map (fun i => (i, rest))
  | _ => .error .truncated

/-! ### Mnemonics -/

/-- The mnemonic of an instruction, as opcode_table.json has it. -/
def Instr.mnemonic : Instr → String
  | .lb _ _ _ => "LB"
  | .lbu _ _ _ => "LBU"
  | .lh _ _ _ => "LH"
  | .lhu _ _ _ => "LHU"
  | .lw _ _ _ => "LW"
  | .lf _ _ _ => "LF"
  | .ld _ _ _ => "LD"
  | .sb _ _ _ => "SB"
  | .sh _ _ _ => "SH"
  | .sw _ _ _ => "SW"
  | .sf _ _ _ => "SF"
  | .sd _ _ _ => "SD"
  | .movi2fp _ _ => "MOVI2FP"
  | .movfp2i _ _ => "MOVFP2I"
  | .movf _ _ => "MOVF"
  | .movd _ _ => "MOVD"
  | .movi2s _ _ => "MOVI2S"
  | .movs2i _ _ => "MOVS2I"
  | .add _ _ _ => "ADD"
  | .addi _ _ _ => "ADDI"
  | .addu _ _ _ => "ADDU"
  | .addui _ _ _ => "ADDUI"
  | .sub _ _ _ => "SUB"
  | .subi _ _ _ => "SUBI"
  | .subu _ _ _ => "SUBU"
  | .subui _ _ _ => "SUBUI"
  | .mult _ _ _ => "MULT"
  | .multu _ _ _ => "MULTU"
  | .div _ _ _ => "DIV"
  | .divu _ _ _ => "DIVU"
  | .and _ _ _ => "AND"
  | .andi _ _ _ => "ANDI"
  | .or _ _ _ => "OR"
  | .ori _ _ _ => "ORI"
  | .xor _ _ _ => "XOR"
  | .xori _ _ _ => "XORI"
  | .lhi _ _ => "LHI"
  | .sll _ _ _ => "SLL"
  | .srl _ _ _ => "SRL"
  | .sra _ _ _ => "SRA"
  | .slli _ _ _ => "SLLI"
  | .srli _ _ _ => "SRLI"
  | .srai _ _ _ => "SRAI"
  | .seq _ _ _ => "SEQ"
  | .sne _ _ _ => "SNE"
  | .slt _ _ _ => "SLT"
  | .sgt _ _ _ => "SGT"
  | .sle _ _ _ => "SLE"
  | .sge _ _ _ => "SGE"
  | .seqi _ _ _ => "SEQI"
  | .snei _ _ _ => "SNEI"
  | .slti _ _ _ => "SLTI"
  | .sgti _ _ _ => "SGTI"
  | .slei _ _ _ => "SLEI"
  | .sgei _ _ _ => "SGEI"
  | .sequ _ _ _ => "SEQU"
  | .sneu _ _ _ => "SNEU"
  | .sltu _ _ _ => "SLTU"
  | .sgtu _ _ _ => "SGTU"
  | .sleu _ _ _ => "SLEU"
  | .sgeu _ _ _ => "SGEU"
  | .sequi _ _ _ => "SEQUI"
  | .sneui _ _ _ => "SNEUI"
  | .sltui _ _ _ => "SLTUI"
  | .sgtui _ _ _ => "SGTUI"
  | .sleui _ _ _ => "SLEUI"
  | .sgeui _ _ _ => "SGEUI"
  | .nop => "NOP"
  | .beqz _ _ => "BEQZ"
  | .bnez _ _ => "BNEZ"
  | .bfpt _ => "BFPT"
  | .bfpf _ => "BFPF"
  | .j _ => "J"
  | .jr _ => "JR"
  | .jal _ => "JAL"
  | .jalr _ => "JALR"
  | .trap _ => "TRAP"
  | .rfe _ => "RFE"
  | .addd _ _ _ => "ADDD"
  | .addf _ _ _ => "ADDF"
  | .subd _ _ _ => "SUBD"
  | .subf _ _ _ => "SUBF"
  | .multd _ _ _ => "MULTD"
  | .multf _ _ _ => "MULTF"
  | .divd _ _ _ => "DIVD"
  | .divf _ _ _ => "DIVF"
  | .cvtf2d _ _ => "CVTF2D"
  | .cvtd2f _ _ => "CVTD2F"
  | .cvtf2i _ _ => "CVTF2I"
  | .cvti2f _ _ => "CVTI2F"
  | .cvtd2i _ _ => "CVTD2I"
  | .cvti2d _ _ => "CVTI2D"
  | .eqd _ _ => "EQD"
  | .ned _ _ => "NED"
  | .ltd _ _ => "LTD"
  | .gtd _ _ => "GTD"
  | .led _ _ => "LED"
  | .ged _ _ => "GED"
  | .eqf _ _ => "EQF"
  | .nef _ _ => "NEF"
  | .ltf _ _ => "LTF"
  | .gtf _ _ => "GTF"
  | .lef _ _ => "LEF"
  | .gef _ _ => "GEF"

end Sys2Proof
end

