-- ==== Sys2Proof/Machine/Float.lean ====
section
/-! DEFINITION. The default numerics record FP (00_scope.md R13, 44_floating_point.md R250 to R254): IEEE 754
binary32 and binary64 with round-to-nearest-even (log 8), written once over the format. A result `none` is one that
the rules leave to a draw: a NaN (R252) or an integer outside the range (R254). -/

namespace Sys2Proof.Machine

/-- A binary interchange format: widths of the biased exponent and of the fraction (R250). -/
structure FpFormat where
  expBits : Nat
  fracBits : Nat
  deriving DecidableEq, Repr

/-- Single precision: bit 31 sign, bits 30..23 exponent, bits 22..0 fraction (R250). -/
def binary32 : FpFormat := ⟨8, 23⟩

/-- Double precision: bit 63 sign, bits 62..52 exponent, bits 51..0 fraction (R250). -/
def binary64 : FpFormat := ⟨11, 52⟩

/-- The value a bit pattern stands for (R250). -/
inductive FpValue where
  | nan
  | inf (neg : Bool)
  /-- the number (-1)^neg * mant * 2^exp; a zero keeps its sign -/
  | finite (neg : Bool) (mant : Nat) (exp : Int)
  deriving DecidableEq, Repr

/-- The exponent field of infinities and NaNs: all ones. -/
def FpFormat.maxField (φ : FpFormat) : Nat := 2 ^ φ.expBits - 1

/-- The exponent of the smallest subnormal number: 1 - bias - fracBits, with bias 2^(expBits-1) - 1. -/
def FpFormat.minExp (φ : FpFormat) : Int := 2 - 2 ^ (φ.expBits - 1) - φ.fracBits

/-- The sign bit, in its place. -/
def FpFormat.signBit (φ : FpFormat) (neg : Bool) : Nat := if neg then 2 ^ (φ.expBits + φ.fracBits) else 0

/-- The pattern of an infinity. -/
def FpFormat.infBits (φ : FpFormat) (neg : Bool) : Nat := φ.signBit neg + φ.maxField * 2 ^ φ.fracBits

/-- The value of a pattern: infinity, NaN, zero, subnormal and normal numbers (R250). -/
def FpFormat.decode (φ : FpFormat) (bits : Nat) : FpValue :=
  let neg := bits / 2 ^ (φ.expBits + φ.fracBits) % 2 == 1
  let field := bits / 2 ^ φ.fracBits % 2 ^ φ.expBits
  let frac := bits % 2 ^ φ.fracBits
  if field = φ.maxField then
    if frac = 0 then .inf neg else .nan
  else if field = 0 then .finite neg frac φ.minExp
  else .finite neg (2 ^ φ.fracBits + frac) (φ.minExp + field - 1)

/-! ### Rounding (R251) -/

/-- floor(log2(num / den)) of positive numbers. -/
def log2Ratio (num den : Nat) : Int :=
  let l : Int := (num.log2 : Int) - den.log2
  if den * 2 ^ l.toNat ≤ num * 2 ^ (-l).toNat then l else l - 1

/-- The integer nearest to num / den, the even one of two equally near. -/
def roundHalfEven (num den : Nat) : Nat :=
  let m := num / den
  let r := num % den
  if den < 2 * r || (2 * r == den && m % 2 == 1) then m + 1 else m

/-- The unit in the last place, as a power of two, of the binade of num / den * 2^exp (R251: subnormals honoured). -/
def FpFormat.quantum (φ : FpFormat) (num den : Nat) (exp : Int) : Int :=
  max (log2Ratio num den + exp - φ.fracBits) φ.minExp

/-- The pattern of (-1)^neg * num / den * 2^exp rounded to nearest, ties to even; a magnitude past the largest
finite number gives an infinity (R251). -/
def FpFormat.round (φ : FpFormat) (neg : Bool) (num den : Nat) (exp : Int) : Nat :=
  if num = 0 then φ.signBit neg
  else
    let q := φ.quantum num den exp
    let m := roundHalfEven (num * 2 ^ (exp - q).toNat) (den * 2 ^ (q - exp).toNat)
    φ.signBit neg + min ((q - φ.minExp).toNat * 2 ^ φ.fracBits + m) (φ.maxField * 2 ^ φ.fracBits)

/-! ### Arithmetic (R251) -/

/-- The signed integer of a sign and a magnitude. -/
def signedMag (neg : Bool) (m : Nat) : Int := if neg then -(m : Int) else m

/-- The value with its sign turned. -/
def FpValue.negate : FpValue → FpValue
  | .nan => .nan
  | .inf n => .inf (!n)
  | .finite n m e => .finite (!n) m e

/-- Addition: an exact zero sum of operands of opposite sign is +0, x + x keeps the sign of a zero x (R251). -/
def FpFormat.add (φ : FpFormat) : FpValue → FpValue → Option Nat
  | .nan, _ => none
  | _, .nan => none
  | .inf a, .inf b => if a = b then some (φ.infBits a) else none
  | .inf a, .finite _ _ _ => some (φ.infBits a)
  | .finite _ _ _, .inf b => some (φ.infBits b)
  | .finite n₁ m₁ e₁, .finite n₂ m₂ e₂ =>
    let e := min e₁ e₂
    let i := signedMag n₁ (m₁ * 2 ^ (e₁ - e).toNat) + signedMag n₂ (m₂ * 2 ^ (e₂ - e).toNat)
    if i = 0 then some (φ.signBit (n₁ && n₂)) else some (φ.round (decide (i < 0)) i.natAbs 1 e)

/-- Subtraction: addition of the second operand with its sign turned (R251). -/
def FpFormat.sub (φ : FpFormat) (a b : FpValue) : Option Nat := φ.add a b.negate

/-- Multiplication: the sign is the exclusive-or of the signs, 0 * infinity is a NaN (R251, R260). -/
def FpFormat.mul (φ : FpFormat) : FpValue → FpValue → Option Nat
  | .nan, _ => none
  | _, .nan => none
  | .inf a, .inf b => some (φ.infBits (a ^^ b))
  | .inf a, .finite n m _ => if m = 0 then none else some (φ.infBits (a ^^ n))
  | .finite n m _, .inf b => if m = 0 then none else some (φ.infBits (n ^^ b))
  | .finite n₁ m₁ e₁, .finite n₂ m₂ e₂ => some (φ.round (n₁ ^^ n₂) (m₁ * m₂) 1 (e₁ + e₂))

/-- Division: x / 0 is an infinity for finite non-zero x, 0 / 0 and infinity / infinity are NaNs (R251, R262). -/
def FpFormat.div (φ : FpFormat) : FpValue → FpValue → Option Nat
  | .nan, _ => none
  | _, .nan => none
  | .inf _, .inf _ => none
  | .inf a, .finite n _ _ => some (φ.infBits (a ^^ n))
  | .finite n _ _, .inf b => some (φ.signBit (n ^^ b))
  | .finite n₁ m₁ e₁, .finite n₂ m₂ e₂ =>
    if m₂ = 0 then
      if m₁ = 0 then none else some (φ.infBits (n₁ ^^ n₂))
    else some (φ.round (n₁ ^^ n₂) m₁ m₂ (e₁ - e₂))

/-! ### Conversions and compares (R254) -/

/-- A value in another format, rounded to nearest-even; a NaN gives a draw (R254). -/
def FpFormat.convert (φ : FpFormat) : FpValue → Option Nat
  | .nan => none
  | .inf n => some (φ.infBits n)
  | .finite n m e => some (φ.round n m 1 e)

/-- An integer, rounded to nearest-even; 0 gives +0 (R254, R267). -/
def FpFormat.ofInt (φ : FpFormat) (i : Int) : Nat := φ.round (decide (i < 0)) i.natAbs 1 0

/-- The value truncated toward zero to an integer; none for a NaN or an infinity (R254). -/
def FpValue.truncate : FpValue → Option Int
  | .nan => none
  | .inf _ => none
  | .finite n m e => some (signedMag n (m * 2 ^ e.toNat / 2 ^ (-e).toNat))

/-- The 32-bit pattern of the truncated value where it lies in -2^31 .. 2^31-1, else none (R254). -/
def FpValue.toInt32 (v : FpValue) : Option Word :=
  match v.truncate with
  | some i => if -2 ^ 31 ≤ i ∧ i ≤ 2 ^ 31 - 1 then some (BitVec.ofInt 32 i) else none
  | none => none

/-- How two values compare on the extended reals, -0 equal to +0; none where an operand is a NaN (R254). -/
def FpValue.compare : FpValue → FpValue → Option Ordering
  | .nan, _ => none
  | _, .nan => none
  | .inf a, .inf b => some (if a = b then .eq else if a then .lt else .gt)
  | .inf a, .finite _ _ _ => some (if a then .lt else .gt)
  | .finite _ _ _, .inf b => some (if b then .gt else .lt)
  | .finite n₁ m₁ e₁, .finite n₂ m₂ e₂ =>
    let e := min e₁ e₂
    let i := signedMag n₁ (m₁ * 2 ^ (e₁ - e).toNat)
    let j := signedMag n₂ (m₂ * 2 ^ (e₂ - e).toNat)
    some (if i < j then .lt else if i = j then .eq else .gt)

/-- Whether a relation holds of a comparison; unordered operands satisfy NE alone (R254). -/
def relOrdering (r : Rel) (o : Option Ordering) : Bool :=
  match r with
  | .eq => o == some .eq
  | .ne => o != some .eq
  | .lt => o == some .lt
  | .gt => o == some .gt
  | .le => o == some .lt || o == some .eq
  | .ge => o == some .gt || o == some .eq

/-! ### The default record FP (00_scope.md R13) -/

/-- The value of a single-precision pattern. -/
def valueS (a : Word) : FpValue := binary32.decode a.toNat
/-- The value of a double-precision pattern. -/
def valueD (a : DWord) : FpValue := binary64.decode a.toNat

/-- `fadd_S` -/
def faddS (a b : Word) : Option Word := (binary32.add (valueS a) (valueS b)).map (BitVec.ofNat 32)
/-- `fsub_S` -/
def fsubS (a b : Word) : Option Word := (binary32.sub (valueS a) (valueS b)).map (BitVec.ofNat 32)
/-- `fmul_S` -/
def fmulS (a b : Word) : Option Word := (binary32.mul (valueS a) (valueS b)).map (BitVec.ofNat 32)
/-- `fdiv_S` -/
def fdivS (a b : Word) : Option Word := (binary32.div (valueS a) (valueS b)).map (BitVec.ofNat 32)
/-- `fadd_D` -/
def faddD (a b : DWord) : Option DWord := (binary64.add (valueD a) (valueD b)).map (BitVec.ofNat 64)
/-- `fsub_D` -/
def fsubD (a b : DWord) : Option DWord := (binary64.sub (valueD a) (valueD b)).map (BitVec.ofNat 64)
/-- `fmul_D` -/
def fmulD (a b : DWord) : Option DWord := (binary64.mul (valueD a) (valueD b)).map (BitVec.ofNat 64)
/-- `fdiv_D` -/
def fdivD (a b : DWord) : Option DWord := (binary64.div (valueD a) (valueD b)).map (BitVec.ofNat 64)
/-- `cvt_S2D` -/
def cvtS2D (a : Word) : Option DWord := (binary64.convert (valueS a)).map (BitVec.ofNat 64)
/-- `cvt_D2S` -/
def cvtD2S (a : DWord) : Option Word := (binary32.convert (valueD a)).map (BitVec.ofNat 32)
/-- `cvt_S2I` -/
def cvtS2I (a : Word) : Option Word := (valueS a).toInt32
/-- `cvt_D2I` -/
def cvtD2I (a : DWord) : Option Word := (valueD a).toInt32
/-- `cvt_I2S` -/
def cvtI2S (a : Word) : Word := BitVec.ofNat 32 (binary32.ofInt a.toInt)
/-- `cvt_I2D` -/
def cvtI2D (a : Word) : DWord := BitVec.ofNat 64 (binary64.ofInt a.toInt)
/-- `fcmp_S` -/
def fcmpS (r : Rel) (a b : Word) : Bool := relOrdering r ((valueS a).compare (valueS b))
/-- `fcmp_D` -/
def fcmpD (r : Rel) (a b : DWord) : Bool := relOrdering r ((valueD a).compare (valueD b))

/-- The default record FP: IEEE 754 (R250 to R254; log 8). -/
def ieee754 : Config.FpRecord where
  faddS := faddS
  fsubS := fsubS
  fmulS := fmulS
  fdivS := fdivS
  faddD := faddD
  fsubD := fsubD
  fmulD := fmulD
  fdivD := fdivD
  cvtS2D := cvtS2D
  cvtD2S := cvtD2S
  cvtS2I := cvtS2I
  cvtD2I := cvtD2I
  cvtI2S := cvtI2S
  cvtI2D := cvtI2D
  fcmpS := fcmpS
  fcmpD := fcmpD

/-- The record FP of a run (00_scope.md R13). -/
def numerics : Config.FpPolicy → Config.FpRecord
  | .ieee754 => ieee754
  | .host => Config.hostFp

/-! ### NaN patterns (R252) -/

/-- A single-precision NaN from a draw: its sign and fraction are the draw's, but for a zero fraction, which
becomes 1. Every NaN pattern is the image of itself. -/
def nanPatternS (raw : Word) : Word :=
  let v := raw ||| 0x7F800000#32
  if v &&& 0x007FFFFF#32 = 0#32 then v ||| 1#32 else v

/-- A double-precision NaN from a draw, likewise. -/
def nanPatternD (raw : DWord) : DWord :=
  let v := raw ||| 0x7FF0000000000000#64
  if v &&& 0x000FFFFFFFFFFFFF#64 = 0#64 then v ||| 1#64 else v

end Sys2Proof.Machine
end

