-- ==== Sys2Proof/Machine/State.lean ====
section
/-! DEFINITION. The machine's state as plain data (10_state.md), its faults (60_exceptions.md R320) and refusals,
the canonical form of memory, and the state right after reset (10_state.md R46, 70_reset_and_hazards.md R350). -/

namespace Sys2Proof.Machine

open Sys2Proof.Config

/-! ### Faults, refusals, run status -/

/-- The three instructions the source marks "not implemented!" (60_exceptions.md R324). -/
inductive Unimplemented where
  | movi2s | movs2i | rfe
  deriving DecidableEq, Repr

/-- The closed list of faults (60_exceptions.md R320), with what each records. A fault is the spec's own stop:
precise and terminal (R322). Each is safe: the machine as the spec describes it stops there too, and where a real
machine might go on the model proves nothing of it. -/
inductive Fault where
  /-- (1) raised by fetch, `pc` not a multiple of 4; safe -/
  | fetchMisaligned (pc : Word)
  /-- (2) raised by fetch, an aligned `pc` with a byte outside TEXT; safe -/
  | fetchFault (pc : Word)
  /-- (3) raised by the step, the fetched word decodes to no instruction; safe -/
  | illegalInstruction (w : Word)
  /-- (4) raised by MOVI2S, MOVS2I and RFE on every path; safe -/
  | notImplemented (mnemonic : Unimplemented)
  /-- (5) raised by a load, under UNWRITTEN_READ = fault, of a byte of memory that nothing has written; safe -/
  | unwrittenRead (addr : Word)
  /-- (6) raised by a load or store of n bytes at an address that is not a multiple of n; safe -/
  | addressMisaligned (addr : Word) (n : Nat)
  /-- (7) raised by a load or store that touches a byte outside MEM_MAP; safe -/
  | accessFault (addr : Word) (n : Nat)
  /-- (8) raised by a store that touches a byte of TEXT; safe -/
  | storeToText (addr : Word) (n : Nat)
  /-- (9) raised by ADD, ADDI, SUB, SUBI, MULT, DIV under OVF_POLICY = fault; safe -/
  | integerOverflow
  /-- (10) raised by DIV and DIVU with a zero divisor; safe -/
  | divideByZero
  /-- (11) raised by TRAP n, n not 0, where TRAP_HANDLER is undefined; safe -/
  | unhandledTrap (n : Nat)
  deriving DecidableEq, Repr

/-- Why the model gives no step. -/
inductive Refusal where
  /-- raised by exec's arm of an instruction that has no meaning in the model; safe -/
  | notModelled (mnemonic : String)
  /-- raised by step in a state whose status is not running: "A step is taken only from `running`" (10_state.md
  R45); safe -/
  | notRunning
  deriving DecidableEq, Repr

/-- The run status (10_state.md R45): the spec's bookkeeping, `faulted(F, info)` with the info in the fault. -/
inductive RunStatus where
  | running
  | final
  | faulted (fault : Fault)
  deriving DecidableEq, Repr

/-! ### Memory -/

/-- Memory (10_state.md R43): the bytes that have been written, each under its address. -/
abbrev Memory := List Host.Cell

/-- What an address reads as that memory does not list: nothing has written it (00_scope.md R15; log 3). -/
def unlistedByte (u : UnwrittenRead) (addr : Nat) : Option Byte :=
  match u with
  | .fault => none
  | .any => some (unwrittenByte addr)

/-- The canonical form of memory: addresses strictly rising and inside the 32-bit space (20_memory.md R60), and no
entry equal to what its address reads as unlisted. -/
def Memory.wf (u : UnwrittenRead) (m : Memory) : Bool :=
  decide (m.Pairwise (fun c d => c.1 < d.1)) &&
    m.all (fun c => decide (c.1 < 2 ^ 32) && decide (unlistedByte u c.1 ≠ some c.2))

/-! ### The state -/

/-- The state of the machine (10_state.md). -/
structure State where
  /-- the general registers R0 .. R31 (R30), read and written through `gpr` and `setGpr` only (R31) -/
  x : Vector Word 32
  /-- the floating-point registers F0 .. F31 (R36), read and written through `fpr`, `setFpr`, `dbl`, `setDbl` -/
  f : Vector Word 32
  /-- fpsr.c, the comparison bit (R40) -/
  fpsrC : Bool
  /-- the program counter: the address of the instruction being executed (R33) -/
  pc : Word
  /-- the bytes of memory that have been written (R43) -/
  mem : Memory
  /-- the run status (R45) -/
  status : RunStatus
  /-- the MODEL's own: how many draws (00_scope.md R24) have been made (log 11) -/
  draws : Nat
  /-- the parameters of the run (R44), which no step changes (log 13) -/
  params : Params
  deriving DecidableEq, Repr

/-- One change that the host's trap function makes (60_exceptions.md R327: it "may change any register or memory
byte and may set `status`"; log 12). -/
inductive HostChange where
  | gpr (r : GReg) (v : Word)
  | fpr (r : FReg) (v : Word)
  | fpsrC (c : Bool)
  | pc (v : Word)
  | memByte (addr : Word) (v : Byte)
  | status (st : RunStatus)
  deriving DecidableEq, Repr

/-- The machine right after reset under the given parameters of a run (10_state.md R46, 70_reset_and_hazards.md R350),
with no program loaded (log 6): pc at ENTRY (00_scope.md R10). The zeros of the registers and of fpsr.c are the
model's (log 2), as is the draw counter's (log 11). -/
def State.resetWith (p : Params) : State where
  x := Vector.replicate 32 0#32
  f := Vector.replicate 32 0#32
  fpsrC := false
  pc := p.entry
  mem := []
  status := .running
  draws := 0
  params := p

/-- The machine right after reset under the spec's default parameters (00_scope.md R8 to R15). -/
def State.reset : State := State.resetWith Params.default

end Sys2Proof.Machine

namespace Sys2Proof.Config

/-- TRAP_HANDLER (00_scope.md R14) where the host supplies it: from the trap number and the state whose pc already
stands after the TRAP, the changes it makes in order, or none where it is undefined. DESIGN CHOICE, safe (log 12):
nothing is known of it. -/
opaque trapHandler : Nat → Machine.State → Option (List Machine.HostChange)

end Sys2Proof.Config
end

