-- ==== Sys2Proof/Machine/Ops.lean ====
section
/-! DEFINITION. The named operations of the machine: registers (10_state.md), memory (20_memory.md R63, R64), fetch
(R76), the raising of a fault (00_scope.md R20), and what instructions of one shape share. -/

namespace Sys2Proof.Machine

open Sys2Proof.Config

/-- What an instruction answers. -/
abbrev Result := Host.Outcome State Fault Refusal

/-! ### Registers -/

/-- `x[r]`: general register r, R0 reads zero (10_state.md R31). -/
def State.gpr (s : State) (r : GReg) : Word := if r = 0#5 then 0#32 else s.x[r.toNat]'r.isLt

/-- `x[r] <- v`: a write to R0 is discarded (10_state.md R31). -/
def State.setGpr (s : State) (r : GReg) (v : Word) : State :=
  { s with x := if r = 0#5 then s.x else s.x.set r.toNat v r.isLt }

/-- `f[r]` (10_state.md R36). -/
def State.fpr (s : State) (r : FReg) : Word := s.f[r.toNat]'r.isLt

/-- `f[r] <- v`; F0 is an ordinary register (10_state.md R36). -/
def State.setFpr (s : State) (r : FReg) (v : Word) : State := { s with f := s.f.set r.toNat v r.isLt }

/-- `d[r] = f[r] ++ f[r+1]`, the even register the high word (10_state.md R37). -/
def State.dbl (s : State) (r : DReg) : DWord := s.fpr r ++ s.fpr (r + 1#5)

/-- `d[r] <- v`: `f[r] <- v[63:32]`, `f[r+1] <- v[31:0]` (10_state.md R37). -/
def State.setDbl (s : State) (r : DReg) (v : DWord) : State :=
  (s.setFpr r (v.extractLsb' 32 32)).setFpr (r + 1#5) (v.extractLsb' 0 32)

/-- `fpsr.c <- c` (10_state.md R40). -/
def State.setFpsrC (s : State) (c : Bool) : State := { s with fpsrC := c }

/-- `pc <- target`. -/
def State.jump (s : State) (target : Word) : State := { s with pc := target }

/-- `pc <- trunc_32(pc + 4)`, what ends every instruction that is not a taken transfer (10_state.md R34). -/
def State.advance (s : State) : State := { s with pc := s.pc + 4#32 }

/-- `status <- st` (10_state.md R45). -/
def State.setStatus (s : State) (st : RunStatus) : State := { s with status := st }

/-- One more draw has been made (log 11). -/
def State.nextDraw (s : State) : State := { s with draws := s.draws + 1 }

/-- The record FP of the run (00_scope.md R13). -/
def State.numerics (s : State) : FpRecord := Machine.numerics s.params.fp

/-! ### Faults -/

/-- `raise F(info)` (00_scope.md R20): the one operation of every exception of the machine. The spec gives an
exception no entry: nothing is saved, no control is transferred (60_exceptions.md R322, R323), so the step ends in
the fault and changes nothing. -/
def raise (f : Fault) : Result := .fault f

/-- The state a raised fault leaves: that of before the instruction, with status faulted(F, info) (60_exceptions.md
R322). -/
def State.stopped (s : State) (f : Fault) : State := s.setStatus (.faulted f)

/-- The return from an exception: there is none (60_exceptions.md R325). The one instruction for it, RFE, is not
implemented (R324). -/
def returnFromException : Result := raise (.notImplemented .rfe)

/-! ### Sets of addresses -/

/-- The address lies in one of the regions. -/
def inRegions (rs : List Region) (a : Nat) : Bool :=
  rs.any (fun r => decide (r.base ≤ a) && decide (a < r.base + r.size))

/-- All of a .. a+n-1 lie in the regions. -/
def allInRegions (rs : List Region) (a : Nat) : Nat → Bool
  | 0 => true
  | n + 1 => inRegions rs a && allInRegions rs (a + 1) n

/-- One of a .. a+n-1 lies in the regions. -/
def someInRegions (rs : List Region) (a : Nat) : Nat → Bool
  | 0 => false
  | n + 1 => inRegions rs a || someInRegions rs (a + 1) n

/-! ### Bytes of memory -/

/-- The byte listed under an address. -/
def memLookup : Memory → Nat → Option Byte
  | [], _ => none
  | (k, v) :: m, a => if k = a then some v else memLookup m a

/-- The memory with a byte listed under an address, addresses rising. -/
def memInsert (a : Nat) (v : Byte) : Memory → Memory
  | [] => [(a, v)]
  | (k, w) :: m =>
    if a < k then (a, v) :: (k, w) :: m
    else if a = k then (a, v) :: m
    else (k, w) :: memInsert a v m

/-- The memory without the entry of an address. -/
def memErase (a : Nat) : Memory → Memory
  | [] => []
  | (k, w) :: m => if a = k then m else (k, w) :: memErase a m

/-- `M[a]`: the byte at an address, none where nothing has written it under UNWRITTEN_READ = fault. -/
def State.readByte (s : State) (a : Nat) : Option Byte :=
  match memLookup s.mem a with
  | some v => some v
  | none => unlistedByte s.params.unwrittenRead a

/-- `M[a] <- v`, in canonical form. -/
def State.writeByte (s : State) (a : Nat) (v : Byte) : State :=
  { s with mem := if unlistedByte s.params.unwrittenRead a = some v then memErase a s.mem else memInsert a v s.mem }

/-- The n bytes from a on, or UnwrittenRead of the first that has no value (20_memory.md R63 step 3). -/
def State.readBytes (s : State) (a : Nat) : Nat → Except Fault (List Byte)
  | 0 => .ok []
  | n + 1 =>
    match s.readByte a with
    | none => .error (.unwrittenRead (BitVec.ofNat 32 a))
    | some b =>
      match s.readBytes (a + 1) n with
      | .ok bs => .ok (b :: bs)
      | .error f => .error f

/-- The state with the bytes from a on written (20_memory.md R64 step 4). -/
def State.writeBytes (s : State) (a : Nat) : List Byte → State
  | [] => s
  | b :: bs => (s.writeByte a b).writeBytes (a + 1) bs

/-! ### Accesses (20_memory.md R63, R64, R76) -/

/-- Steps 1 and 2 of MemRead and MemWrite: alignment, then mapping (20_memory.md R63, R64). -/
def State.checkAccess (s : State) (addr : Word) (n : Nat) : Except Fault Unit :=
  if addr.toNat % n ≠ 0 then .error (.addressMisaligned addr n)
  else if allInRegions s.params.memMap addr.toNat n && decide (addr.toNat + n ≤ 2 ^ 32) then .ok ()
  else .error (.accessFault addr n)

/-- `MemRead(addr, n)`, the bytes most significant first (20_memory.md R63). -/
def State.memRead (s : State) (addr : Word) (n : Nat) : Except Fault (List Byte) :=
  match s.checkAccess addr n with
  | .ok () => s.readBytes addr.toNat n
  | .error f => .error f

/-- `MemWrite(addr, n, v)`, with the n bytes of v most significant first (20_memory.md R64). -/
def State.memWrite (s : State) (addr : Word) (bs : List Byte) : Except Fault State :=
  match s.checkAccess addr bs.length with
  | .ok () =>
    if someInRegions s.params.text addr.toNat bs.length then .error (.storeToText addr bs.length)
    else .ok (s.writeBytes addr.toNat bs)
  | .error f => .error f

/-- `Fetch(pc)` (20_memory.md R76). -/
def State.fetch (s : State) : Except Fault Word :=
  if s.pc.toNat % 4 ≠ 0 then .error (.fetchMisaligned s.pc)
  else if allInRegions s.params.text s.pc.toNat 4 then
    match s.readBytes s.pc.toNat 4 with
    | .ok bs => .ok (beValue 32 bs)
    | .error f => .error f
  else .error (.fetchFault s.pc)

/-- Fetch and decode: the instruction at pc, or the first of the three faults that precede it (60_exceptions.md
R321). -/
def State.fetchInstr (s : State) : Except Fault Instr :=
  match s.fetch with
  | .ok w =>
    match decodeWith s.params.enc w with
    | .ok i => .ok i
    | .error _ => .error (.illegalInstruction w)
  | .error f => .error f

/-! ### Loading a program (10_state.md R46, 45_assembler.md R290) -/

/-- The state with the bytes from a on placed by the loader: no check is made. -/
def State.place (s : State) (a : Nat) (bs : List Byte) : State := s.writeBytes a bs

/-- The state with the bytes a .. a+n-1 made part of TEXT, if they are not already. -/
def State.addText (s : State) (a n : Nat) : State :=
  if allInRegions s.params.text a n then s
  else { s with params := { s.params with text := ⟨a, n⟩ :: s.params.text } }

/-- The state with an instruction's bytes placed at a and made part of TEXT (45_assembler.md R301). -/
def State.placeText (s : State) (a : Nat) (bs : List Byte) : State := (s.place a bs).addText a bs.length

/-! ### What instructions of one shape share -/

/-- `x[rd] <- v`, pc + 4. -/
def writeGpr (rd : GReg) (v : Word) (s : State) : Result := .next (s.setGpr rd v).advance

/-- `x[rd] <- v` where v may be a fault instead. -/
def writeGprChecked (rd : GReg) (v : Except Fault Word) (s : State) : Result :=
  match v with
  | .ok w => writeGpr rd w s
  | .error f => raise f

/-- `f[rd] <- v`, pc + 4. -/
def writeFpr (rd : FReg) (v : Word) (s : State) : Result := .next (s.setFpr rd v).advance

/-- `d[rd] <- v`, pc + 4. -/
def writeDbl (rd : DReg) (v : DWord) (s : State) : Result := .next (s.setDbl rd v).advance

/-- `f[rd] <- v`, and a draw from the NaN patterns where FP returns a NaN (44_floating_point.md R252; log 9). -/
def writeFprOrNan (rd : FReg) (v : Option Word) (s : State) : Result :=
  match v with
  | some w => writeFpr rd w s
  | none => writeFpr rd (nanPatternS (nanSingle s.draws)) s.nextDraw

/-- `d[rd] <- v`, and a draw from the NaN patterns where FP returns a NaN (44_floating_point.md R252; log 9). -/
def writeDblOrNan (rd : DReg) (v : Option DWord) (s : State) : Result :=
  match v with
  | some w => writeDbl rd w s
  | none => writeDbl rd (nanPatternD (nanDouble s.draws)) s.nextDraw

/-- `f[rd] <- v`, and a draw from all 32-bit patterns where the conversion has no value (R254; log 10). -/
def writeFprOrDraw (rd : FReg) (v : Option Word) (s : State) : Result :=
  match v with
  | some w => writeFpr rd w s
  | none => writeFpr rd (convertDraw s.draws) s.nextDraw

/-- `fpsr.c <- c`, pc + 4: what a floating-point compare does (44_floating_point.md R255). -/
def writeCompare (c : Bool) (s : State) : Result := .next (s.setFpsrC c).advance

/-- A load: MemRead, then the bytes go where `write` puts them, pc + 4. -/
def load (addr : Word) (n : Nat) (write : List Byte → State) (s : State) : Result :=
  match s.memRead addr n with
  | .ok bs => .next (write bs).advance
  | .error f => raise f

/-- A store: MemWrite, pc + 4. -/
def store (addr : Word) (bs : List Byte) (s : State) : Result :=
  match s.memWrite addr bs with
  | .ok t => .next t.advance
  | .error f => raise f

/-- A control transfer that is taken or not (43_control.md R231). -/
def branch (taken : Bool) (target : Word) (s : State) : Result :=
  .next (if taken then s.jump target else s.advance)

/-! ### The host's trap function (60_exceptions.md R327; log 12) -/

/-- One change the host makes. -/
def State.applyHost (s : State) : HostChange → State
  | .gpr r v => s.setGpr r v
  | .fpr r v => s.setFpr r v
  | .fpsrC c => s.setFpsrC c
  | .pc v => s.jump v
  | .memByte a v => s.writeByte a.toNat v
  | .status st => s.setStatus st

/-- The changes the host makes, in order. -/
def State.applyHostAll (s : State) (cs : List HostChange) : State := cs.foldl State.applyHost s

/-- TRAP_HANDLER at (n, s), where s already stands after the TRAP (00_scope.md R14). -/
def hostTrap (n : Nat) (s : State) : Option State :=
  match s.params.trapHandler with
  | .undefined => none
  | .host => (trapHandler n s).map (fun cs => (s.applyHostAll cs).nextDraw)

end Sys2Proof.Machine
end

