-- ==== Sys2Proof/Machine/Flags.lean ====
section
/-! DEFINITION. The one flag and the conditions that take a flag's place: there are no integer condition codes
(10_state.md R42), so overflow is a check on the exact result (41_arithmetic.md R161) and a comparison writes 0 or 1
to a register (42_logical.md R195) or fpsr.c (44_floating_point.md R254). -/

namespace Sys2Proof.Machine

open Sys2Proof.Config

/-- `trunc_32(i)`: the 32-bit pattern of an integer modulo 2^32 (00_scope.md R17). -/
def trunc32 (i : Int) : Word := BitVec.ofInt 32 i

/-- `-2^31 <= i <= 2^31-1`: the exact signed result fits (41_arithmetic.md R161). -/
def fitsSigned (i : Int) : Bool := decide (-2 ^ 31 ≤ i) && decide (i ≤ 2 ^ 31 - 1)

/-- `ovf_S(i)` (41_arithmetic.md R161). -/
def ovfS (policy : OvfPolicy) (i : Int) : Except Fault Word :=
  if fitsSigned i then .ok (trunc32 i)
  else
    match policy with
    | .fault => .error .integerOverflow
    | .wrap => .ok (trunc32 i)

/-- Whether a relation holds of two integers, left operand first (42_logical.md R195). -/
def relHolds (r : Rel) (a b : Int) : Bool :=
  match r with
  | .eq => decide (a = b)
  | .ne => decide (a ≠ b)
  | .lt => decide (a < b)
  | .gt => decide (a > b)
  | .le => decide (a ≤ b)
  | .ge => decide (a ≥ b)

/-- The relation of `signed(a)` and `signed(b)` (42_logical.md R195). -/
def relSigned (r : Rel) (a b : Word) : Bool := relHolds r a.toInt b.toInt

/-- The relation of `unsigned(a)` and `unsigned(b)` (42_logical.md R195). -/
def relUnsigned (r : Rel) (a b : Word) : Bool := relHolds r (a.toNat : Int) (b.toNat : Int)

/-- What a set-conditional writes: 0x00000001 or 0x00000000 (42_logical.md R195). -/
def setWord (c : Bool) : Word := if c then 1#32 else 0#32

end Sys2Proof.Machine
end

