-- ==== Sys2Proof/Machine/Operands.lean ====
section
/-! DEFINITION. Every operand form of the machine (30_encoding.md R101, 40_data_transfer.md R130, 43_control.md
R230). -/

namespace Sys2Proof.Machine

/-- `sext_32(imm16)` (R101 a): displacements, ADDI, SUBI, the S__I, branch offsets. -/
def sextImm (imm16 : Imm16) : Word := imm16.signExtend 32

/-- `zext_32(imm16)` (R101 b): ADDUI, SUBUI, ANDI, ORI, XORI, the S__UI. -/
def zextImm (imm16 : Imm16) : Word := imm16.setWidth 32

/-- `imm16 ++ 0^16` (R101 c): LHI. -/
def highImm (imm16 : Imm16) : Word := imm16 ++ 0#16

/-- `imm16[4:0]` as a shift amount, the upper bits ignored (R101 d, 42_logical.md R188). -/
def shiftImm (imm16 : Imm16) : Nat := (imm16.extractLsb' 0 5).toNat

/-- `x[rs2][4:0]` as a shift amount, the other 27 bits ignored (42_logical.md R188). -/
def shiftReg (s : State) (rs2 : GReg) : Nat := ((s.gpr rs2).extractLsb' 0 5).toNat

/-- `sext_32(off26)` (R101 e): J, JAL. -/
def sextOff (off26 : Off26) : Word := off26.signExtend 32

/-- `unsigned(off26)` (R101 f): the number of a TRAP. -/
def trapNumber (off26 : Off26) : Nat := off26.toNat

/-- `ea = trunc_32(x[rs1] + sext_32(imm16))`, the one data addressing mode (40_data_transfer.md R130). -/
def effectiveAddress (s : State) (rs1 : GReg) (imm16 : Imm16) : Word := s.gpr rs1 + sextImm imm16

/-- `trunc_32(pc + sext_32(imm16))`: the target of a branch, from its own address (43_control.md R230). -/
def branchTarget (s : State) (imm16 : Imm16) : Word := s.pc + sextImm imm16

/-- `trunc_32(pc + sext_32(off26))`: the target of J and JAL, from their own address (43_control.md R230). -/
def jumpTarget (s : State) (off26 : Off26) : Word := s.pc + sextOff off26

/-- The value JAL and JALR save: the address of the next instruction (43_control.md R233). -/
def linkValue (s : State) : Word := s.pc + 4#32

/-- The link register R31 (43_control.md R233). -/
def linkReg : GReg := 31#5

end Sys2Proof.Machine
end

