-- ==== Sys2Proof/Machine/Arithmetic.lean ====
section
/-! DEFINITION. The integer arithmetic instructions (41_arithmetic.md). The signed ones compute an exact integer and
write it through ovf_S (R161), the unsigned ones write its low 32 bits. -/

namespace Sys2Proof.Machine

/-- `x[rd] <- ovf_S(i)` (R161). -/
def writeSigned (rd : GReg) (i : Int) (s : State) : Result := writeGprChecked rd (ovfS s.params.ovfPolicy i) s

/-- ADD (R165) -/
def execAdd (rd rs1 rs2 : GReg) (s : State) : Result := writeSigned rd ((s.gpr rs1).toInt + (s.gpr rs2).toInt) s

/-- ADDI (R166) -/
def execAddi (rd rs1 : GReg) (imm16 : Imm16) (s : State) : Result :=
  writeSigned rd ((s.gpr rs1).toInt + (sextImm imm16).toInt) s

/-- ADDU (R167) -/
def execAddu (rd rs1 rs2 : GReg) (s : State) : Result := writeGpr rd (s.gpr rs1 + s.gpr rs2) s

/-- ADDUI (R168): the immediate is zero-extended. -/
def execAddui (rd rs1 : GReg) (imm16 : Imm16) (s : State) : Result := writeGpr rd (s.gpr rs1 + zextImm imm16) s

/-- SUB (R169): rs1 minus rs2. -/
def execSub (rd rs1 rs2 : GReg) (s : State) : Result := writeSigned rd ((s.gpr rs1).toInt - (s.gpr rs2).toInt) s

/-- SUBI (R170) -/
def execSubi (rd rs1 : GReg) (imm16 : Imm16) (s : State) : Result :=
  writeSigned rd ((s.gpr rs1).toInt - (sextImm imm16).toInt) s

/-- SUBU (R171) -/
def execSubu (rd rs1 rs2 : GReg) (s : State) : Result := writeGpr rd (s.gpr rs1 - s.gpr rs2) s

/-- SUBUI (R172): the immediate is zero-extended. -/
def execSubui (rd rs1 : GReg) (imm16 : Imm16) (s : State) : Result := writeGpr rd (s.gpr rs1 - zextImm imm16) s

/-- MULT (R173) -/
def execMult (rd rs1 rs2 : GReg) (s : State) : Result := writeSigned rd ((s.gpr rs1).toInt * (s.gpr rs2).toInt) s

/-- MULTU (R174): the low 32 bits of the exact product. -/
def execMultu (rd rs1 rs2 : GReg) (s : State) : Result := writeGpr rd (s.gpr rs1 * s.gpr rs2) s

/-- DIV (R175): the quotient rounded toward zero (R163); a zero divisor faults under every policy. -/
def execDiv (rd rs1 rs2 : GReg) (s : State) : Result :=
  if s.gpr rs2 = 0#32 then raise .divideByZero
  else writeSigned rd (Int.tdiv (s.gpr rs1).toInt (s.gpr rs2).toInt) s

/-- DIVU (R176): the floor of the unsigned quotient. -/
def execDivu (rd rs1 rs2 : GReg) (s : State) : Result :=
  if s.gpr rs2 = 0#32 then raise .divideByZero
  else writeGpr rd (BitVec.ofNat 32 ((s.gpr rs1).toNat / (s.gpr rs2).toNat)) s

end Sys2Proof.Machine
end

