-- ==== Sys2Proof/Machine/Control.lean ====
section
/-! DEFINITION. The control-transfer and system instructions (43_control.md). There is no delay slot (R231) and no
target is checked here: the next fetch does it (R232). -/

namespace Sys2Proof.Machine

/-! ### Conditional branches -/

/-- BEQZ (R235): taken when all 32 bits of the register are zero. -/
def execBeqz (rs1 : GReg) (imm16 : Imm16) (s : State) : Result :=
  branch (s.gpr rs1 == 0#32) (branchTarget s imm16) s

/-- BNEZ (R236) -/
def execBnez (rs1 : GReg) (imm16 : Imm16) (s : State) : Result :=
  branch (s.gpr rs1 != 0#32) (branchTarget s imm16) s

/-- BFPT (R237): taken when fpsr.c is 1; the bit is not changed. -/
def execBfpt (imm16 : Imm16) (s : State) : Result := branch s.fpsrC (branchTarget s imm16) s

/-- BFPF (R238): taken when fpsr.c is 0; the bit is not changed. -/
def execBfpf (imm16 : Imm16) (s : State) : Result := branch (!s.fpsrC) (branchTarget s imm16) s

/-! ### Jumps -/

/-- J (R239) -/
def execJ (off26 : Off26) (s : State) : Result := .next (s.jump (jumpTarget s off26))

/-- JR (R240): the register's value is the target, whole. -/
def execJr (rs1 : GReg) (s : State) : Result := .next (s.jump (s.gpr rs1))

/-- JAL (R241): R31 gets pc + 4. -/
def execJal (off26 : Off26) (s : State) : Result :=
  .next ((s.setGpr linkReg (linkValue s)).jump (jumpTarget s off26))

/-- JALR (R242): the target is read before R31 is written. -/
def execJalr (rs1 : GReg) (s : State) : Result := .next ((s.setGpr linkReg (linkValue s)).jump (s.gpr rs1))

/-! ### System instructions -/

/-- TRAP (R243, 60_exceptions.md R326, R327): TRAP 0 ends the run, pc stays; any other number is the host's, whose
function sees the state after the TRAP, and faults where the host has none. -/
def execTrap (off26 : Off26) (s : State) : Result :=
  if trapNumber off26 = 0 then .next (s.setStatus .final)
  else
    match hostTrap (trapNumber off26) s.advance with
    | some t => .next t
    | none => raise (.unhandledTrap (trapNumber off26))

/-- RFE (R244, 60_exceptions.md R324, R325): always NotImplemented. -/
def execRfe (_off26 : Off26) (_s : State) : Result := returnFromException

end Sys2Proof.Machine
end

