-- ==== Sys2Proof/Machine/DataTransfer.lean ====
section
/-! DEFINITION. The data transfer instructions (40_data_transfer.md). -/

namespace Sys2Proof.Machine

/-! ### Loads -/

/-- LB (R131): the byte at ea, sign-extended. -/
def execLb (rd rs1 : GReg) (imm16 : Imm16) (s : State) : Result :=
  load (effectiveAddress s rs1 imm16) 1 (fun bs => s.setGpr rd ((beValue 8 bs).signExtend 32)) s

/-- LBU (R132): the byte at ea, zero-extended. -/
def execLbu (rd rs1 : GReg) (imm16 : Imm16) (s : State) : Result :=
  load (effectiveAddress s rs1 imm16) 1 (fun bs => s.setGpr rd ((beValue 8 bs).setWidth 32)) s

/-- LH (R133): the halfword at ea, sign-extended. -/
def execLh (rd rs1 : GReg) (imm16 : Imm16) (s : State) : Result :=
  load (effectiveAddress s rs1 imm16) 2 (fun bs => s.setGpr rd ((beValue 16 bs).signExtend 32)) s

/-- LHU (R134): the halfword at ea, zero-extended. -/
def execLhu (rd rs1 : GReg) (imm16 : Imm16) (s : State) : Result :=
  load (effectiveAddress s rs1 imm16) 2 (fun bs => s.setGpr rd ((beValue 16 bs).setWidth 32)) s

/-- LW (R135): the word at ea. -/
def execLw (rd rs1 : GReg) (imm16 : Imm16) (s : State) : Result :=
  load (effectiveAddress s rs1 imm16) 4 (fun bs => s.setGpr rd (beValue 32 bs)) s

/-- LF (R136): the word at ea, bits unchanged, to a floating-point register. -/
def execLf (rd : FReg) (rs1 : GReg) (imm16 : Imm16) (s : State) : Result :=
  load (effectiveAddress s rs1 imm16) 4 (fun bs => s.setFpr rd (beValue 32 bs)) s

/-- LD (R137): one 8-byte access, the word at ea to the even register, the word at ea+4 to the odd one. -/
def execLd (rd : DReg) (rs1 : GReg) (imm16 : Imm16) (s : State) : Result :=
  load (effectiveAddress s rs1 imm16) 8 (fun bs => s.setDbl rd (beValue 64 bs)) s

/-! ### Stores: the data register is field rd (00_scope.md R22) -/

/-- SB (R138): `x[rd][7:0]` at ea. -/
def execSb (rs1 : GReg) (imm16 : Imm16) (rd : GReg) (s : State) : Result :=
  store (effectiveAddress s rs1 imm16) (beBytes 1 (s.gpr rd)) s

/-- SH (R139): `x[rd][15:0]` at ea. -/
def execSh (rs1 : GReg) (imm16 : Imm16) (rd : GReg) (s : State) : Result :=
  store (effectiveAddress s rs1 imm16) (beBytes 2 (s.gpr rd)) s

/-- SW (R140): `x[rd]` at ea. -/
def execSw (rs1 : GReg) (imm16 : Imm16) (rd : GReg) (s : State) : Result :=
  store (effectiveAddress s rs1 imm16) (beBytes 4 (s.gpr rd)) s

/-- SF (R141): `f[rd]` at ea, no conversion. -/
def execSf (rs1 : GReg) (imm16 : Imm16) (rd : FReg) (s : State) : Result :=
  store (effectiveAddress s rs1 imm16) (beBytes 4 (s.fpr rd)) s

/-- SD (R142): `f[rd] ++ f[rd+1]` at ea, one 8-byte access. -/
def execSd (rs1 : GReg) (imm16 : Imm16) (rd : DReg) (s : State) : Result :=
  store (effectiveAddress s rs1 imm16) (beBytes 8 (s.dbl rd)) s

/-! ### Moves: bit copies -/

/-- MOVI2FP (R143): `f[rd] <- x[rs1]`. -/
def execMovi2fp (rd : FReg) (rs1 : GReg) (s : State) : Result := writeFpr rd (s.gpr rs1) s

/-- MOVFP2I (R144): `x[rd] <- f[rs1]`. -/
def execMovfp2i (rd : GReg) (rs1 : FReg) (s : State) : Result := writeGpr rd (s.fpr rs1) s

/-- MOVF (R145): `f[rd] <- f[rs1]`. -/
def execMovf (rd rs1 : FReg) (s : State) : Result := writeFpr rd (s.fpr rs1) s

/-- MOVD (R146): both words of the pair, read before either is written. -/
def execMovd (rd rs1 : DReg) (s : State) : Result := writeDbl rd (s.dbl rs1) s

/-- MOVI2S (R147, 60_exceptions.md R324): always NotImplemented. -/
def execMovi2s (_rd : SReg) (_rs1 : GReg) (_s : State) : Result := raise (.notImplemented .movi2s)

/-- MOVS2I (R148, 60_exceptions.md R324): always NotImplemented. -/
def execMovs2i (_rd : GReg) (_rs1 : SReg) (_s : State) : Result := raise (.notImplemented .movs2i)

end Sys2Proof.Machine
end

