-- ==== Sys2Proof/Machine/FloatingPoint.lean ====
section
/-! DEFINITION. The floating-point instructions (44_floating_point.md), stated through the record FP of the run
(00_scope.md R13).
All source registers are read before any destination is written (R255). -/

namespace Sys2Proof.Machine

/-! ### Arithmetic -/

/-- ADDD (R256) -/
def execAddd (rd rs1 rs2 : DReg) (s : State) : Result :=
  writeDblOrNan rd (s.numerics.faddD (s.dbl rs1) (s.dbl rs2)) s

/-- ADDF (R257) -/
def execAddf (rd rs1 rs2 : FReg) (s : State) : Result :=
  writeFprOrNan rd (s.numerics.faddS (s.fpr rs1) (s.fpr rs2)) s

/-- SUBD (R258) -/
def execSubd (rd rs1 rs2 : DReg) (s : State) : Result :=
  writeDblOrNan rd (s.numerics.fsubD (s.dbl rs1) (s.dbl rs2)) s

/-- SUBF (R259) -/
def execSubf (rd rs1 rs2 : FReg) (s : State) : Result :=
  writeFprOrNan rd (s.numerics.fsubS (s.fpr rs1) (s.fpr rs2)) s

/-- MULTD (R260) -/
def execMultd (rd rs1 rs2 : DReg) (s : State) : Result :=
  writeDblOrNan rd (s.numerics.fmulD (s.dbl rs1) (s.dbl rs2)) s

/-- MULTF (R261) -/
def execMultf (rd rs1 rs2 : FReg) (s : State) : Result :=
  writeFprOrNan rd (s.numerics.fmulS (s.fpr rs1) (s.fpr rs2)) s

/-- DIVD (R262) -/
def execDivd (rd rs1 rs2 : DReg) (s : State) : Result :=
  writeDblOrNan rd (s.numerics.fdivD (s.dbl rs1) (s.dbl rs2)) s

/-- DIVF (R263) -/
def execDivf (rd rs1 rs2 : FReg) (s : State) : Result :=
  writeFprOrNan rd (s.numerics.fdivS (s.fpr rs1) (s.fpr rs2)) s

/-! ### Conversions (R254) -/

/-- CVTF2D (R264): exact. -/
def execCvtf2d (rd : DReg) (rs1 : FReg) (s : State) : Result := writeDblOrNan rd (s.numerics.cvtS2D (s.fpr rs1)) s

/-- CVTD2F (R265): rounds to nearest-even. -/
def execCvtd2f (rd : FReg) (rs1 : DReg) (s : State) : Result := writeFprOrNan rd (s.numerics.cvtD2S (s.dbl rs1)) s

/-- CVTF2I (R266): truncates toward zero; a draw where the operand has no 32-bit integer. -/
def execCvtf2i (rd rs1 : FReg) (s : State) : Result := writeFprOrDraw rd (s.numerics.cvtS2I (s.fpr rs1)) s

/-- CVTI2F (R267): the source read as a two's-complement integer. -/
def execCvti2f (rd rs1 : FReg) (s : State) : Result := writeFpr rd (s.numerics.cvtI2S (s.fpr rs1)) s

/-- CVTD2I (R268): truncates toward zero; a draw where the operand has no 32-bit integer. -/
def execCvtd2i (rd : FReg) (rs1 : DReg) (s : State) : Result := writeFprOrDraw rd (s.numerics.cvtD2I (s.dbl rs1)) s

/-- CVTI2D (R269): exact for every input. -/
def execCvti2d (rd : DReg) (rs1 : FReg) (s : State) : Result := writeDbl rd (s.numerics.cvtI2D (s.fpr rs1)) s

/-! ### Compares (R254): they write fpsr.c and no register -/

/-- EQD (R270) -/
def execEqd (rs1 rs2 : DReg) (s : State) : Result := writeCompare (s.numerics.fcmpD .eq (s.dbl rs1) (s.dbl rs2)) s

/-- NED (R271) -/
def execNed (rs1 rs2 : DReg) (s : State) : Result := writeCompare (s.numerics.fcmpD .ne (s.dbl rs1) (s.dbl rs2)) s

/-- LTD (R272) -/
def execLtd (rs1 rs2 : DReg) (s : State) : Result := writeCompare (s.numerics.fcmpD .lt (s.dbl rs1) (s.dbl rs2)) s

/-- GTD (R273) -/
def execGtd (rs1 rs2 : DReg) (s : State) : Result := writeCompare (s.numerics.fcmpD .gt (s.dbl rs1) (s.dbl rs2)) s

/-- LED (R274) -/
def execLed (rs1 rs2 : DReg) (s : State) : Result := writeCompare (s.numerics.fcmpD .le (s.dbl rs1) (s.dbl rs2)) s

/-- GED (R275) -/
def execGed (rs1 rs2 : DReg) (s : State) : Result := writeCompare (s.numerics.fcmpD .ge (s.dbl rs1) (s.dbl rs2)) s

/-- EQF (R276) -/
def execEqf (rs1 rs2 : FReg) (s : State) : Result := writeCompare (s.numerics.fcmpS .eq (s.fpr rs1) (s.fpr rs2)) s

/-- NEF (R277) -/
def execNef (rs1 rs2 : FReg) (s : State) : Result := writeCompare (s.numerics.fcmpS .ne (s.fpr rs1) (s.fpr rs2)) s

/-- LTF (R278) -/
def execLtf (rs1 rs2 : FReg) (s : State) : Result := writeCompare (s.numerics.fcmpS .lt (s.fpr rs1) (s.fpr rs2)) s

/-- GTF (R279) -/
def execGtf (rs1 rs2 : FReg) (s : State) : Result := writeCompare (s.numerics.fcmpS .gt (s.fpr rs1) (s.fpr rs2)) s

/-- LEF (R280) -/
def execLef (rs1 rs2 : FReg) (s : State) : Result := writeCompare (s.numerics.fcmpS .le (s.fpr rs1) (s.fpr rs2)) s

/-- GEF (R281) -/
def execGef (rs1 rs2 : FReg) (s : State) : Result := writeCompare (s.numerics.fcmpS .ge (s.fpr rs1) (s.fpr rs2)) s

end Sys2Proof.Machine
end

