-- ==== Sys2Proof/Machine/Logical.lean ====
section
/-! DEFINITION. The logical, shift, set-conditional instructions and NOP (42_logical.md). None of them faults or
writes fpsr.c (R180). -/

namespace Sys2Proof.Machine

/-! ### Bitwise logic and LHI -/

/-- AND (R181) -/
def execAnd (rd rs1 rs2 : GReg) (s : State) : Result := writeGpr rd (s.gpr rs1 &&& s.gpr rs2) s

/-- ANDI (R182): the immediate is zero-extended. -/
def execAndi (rd rs1 : GReg) (imm16 : Imm16) (s : State) : Result := writeGpr rd (s.gpr rs1 &&& zextImm imm16) s

/-- OR (R183) -/
def execOr (rd rs1 rs2 : GReg) (s : State) : Result := writeGpr rd (s.gpr rs1 ||| s.gpr rs2) s

/-- ORI (R184): the immediate is zero-extended. -/
def execOri (rd rs1 : GReg) (imm16 : Imm16) (s : State) : Result := writeGpr rd (s.gpr rs1 ||| zextImm imm16) s

/-- XOR (R185) -/
def execXor (rd rs1 rs2 : GReg) (s : State) : Result := writeGpr rd (s.gpr rs1 ^^^ s.gpr rs2) s

/-- XORI (R186): the immediate is zero-extended. -/
def execXori (rd rs1 : GReg) (imm16 : Imm16) (s : State) : Result := writeGpr rd (s.gpr rs1 ^^^ zextImm imm16) s

/-- LHI (R187): the immediate in bits 31..16, zeros below. -/
def execLhi (rd : GReg) (imm16 : Imm16) (s : State) : Result := writeGpr rd (highImm imm16) s

/-! ### Shifts (R188) -/

/-- SLL (R189) -/
def execSll (rd rs1 rs2 : GReg) (s : State) : Result := writeGpr rd (s.gpr rs1 <<< shiftReg s rs2) s

/-- SRL (R190) -/
def execSrl (rd rs1 rs2 : GReg) (s : State) : Result := writeGpr rd (s.gpr rs1 >>> shiftReg s rs2) s

/-- SRA (R191): filled with copies of bit 31. -/
def execSra (rd rs1 rs2 : GReg) (s : State) : Result := writeGpr rd ((s.gpr rs1).sshiftRight (shiftReg s rs2)) s

/-- SLLI (R192) -/
def execSlli (rd rs1 : GReg) (imm16 : Imm16) (s : State) : Result := writeGpr rd (s.gpr rs1 <<< shiftImm imm16) s

/-- SRLI (R193) -/
def execSrli (rd rs1 : GReg) (imm16 : Imm16) (s : State) : Result := writeGpr rd (s.gpr rs1 >>> shiftImm imm16) s

/-- SRAI (R194) -/
def execSrai (rd rs1 : GReg) (imm16 : Imm16) (s : State) : Result :=
  writeGpr rd ((s.gpr rs1).sshiftRight (shiftImm imm16)) s

/-! ### Set conditional (R195) -/

/-- SEQ (R196): signed. -/
def execSeq (rd rs1 rs2 : GReg) (s : State) : Result :=
  writeGpr rd (setWord (relSigned .eq (s.gpr rs1) (s.gpr rs2))) s

/-- SNE (R197): signed. -/
def execSne (rd rs1 rs2 : GReg) (s : State) : Result :=
  writeGpr rd (setWord (relSigned .ne (s.gpr rs1) (s.gpr rs2))) s

/-- SLT (R198): signed. -/
def execSlt (rd rs1 rs2 : GReg) (s : State) : Result :=
  writeGpr rd (setWord (relSigned .lt (s.gpr rs1) (s.gpr rs2))) s

/-- SGT (R199): signed. -/
def execSgt (rd rs1 rs2 : GReg) (s : State) : Result :=
  writeGpr rd (setWord (relSigned .gt (s.gpr rs1) (s.gpr rs2))) s

/-- SLE (R200): signed. -/
def execSle (rd rs1 rs2 : GReg) (s : State) : Result :=
  writeGpr rd (setWord (relSigned .le (s.gpr rs1) (s.gpr rs2))) s

/-- SGE (R201): signed. -/
def execSge (rd rs1 rs2 : GReg) (s : State) : Result :=
  writeGpr rd (setWord (relSigned .ge (s.gpr rs1) (s.gpr rs2))) s

/-- SEQI (R202): signed, sign-extended immediate. -/
def execSeqi (rd rs1 : GReg) (imm16 : Imm16) (s : State) : Result :=
  writeGpr rd (setWord (relSigned .eq (s.gpr rs1) (sextImm imm16))) s

/-- SNEI (R203): signed, sign-extended immediate. -/
def execSnei (rd rs1 : GReg) (imm16 : Imm16) (s : State) : Result :=
  writeGpr rd (setWord (relSigned .ne (s.gpr rs1) (sextImm imm16))) s

/-- SLTI (R204): signed, sign-extended immediate. -/
def execSlti (rd rs1 : GReg) (imm16 : Imm16) (s : State) : Result :=
  writeGpr rd (setWord (relSigned .lt (s.gpr rs1) (sextImm imm16))) s

/-- SGTI (R205): signed, sign-extended immediate. -/
def execSgti (rd rs1 : GReg) (imm16 : Imm16) (s : State) : Result :=
  writeGpr rd (setWord (relSigned .gt (s.gpr rs1) (sextImm imm16))) s

/-- SLEI (R206): signed, sign-extended immediate. -/
def execSlei (rd rs1 : GReg) (imm16 : Imm16) (s : State) : Result :=
  writeGpr rd (setWord (relSigned .le (s.gpr rs1) (sextImm imm16))) s

/-- SGEI (R207): signed, sign-extended immediate. -/
def execSgei (rd rs1 : GReg) (imm16 : Imm16) (s : State) : Result :=
  writeGpr rd (setWord (relSigned .ge (s.gpr rs1) (sextImm imm16))) s

/-- SEQU (R208): unsigned. -/
def execSequ (rd rs1 rs2 : GReg) (s : State) : Result :=
  writeGpr rd (setWord (relUnsigned .eq (s.gpr rs1) (s.gpr rs2))) s

/-- SNEU (R209): unsigned. -/
def execSneu (rd rs1 rs2 : GReg) (s : State) : Result :=
  writeGpr rd (setWord (relUnsigned .ne (s.gpr rs1) (s.gpr rs2))) s

/-- SLTU (R210): unsigned. -/
def execSltu (rd rs1 rs2 : GReg) (s : State) : Result :=
  writeGpr rd (setWord (relUnsigned .lt (s.gpr rs1) (s.gpr rs2))) s

/-- SGTU (R211): unsigned. -/
def execSgtu (rd rs1 rs2 : GReg) (s : State) : Result :=
  writeGpr rd (setWord (relUnsigned .gt (s.gpr rs1) (s.gpr rs2))) s

/-- SLEU (R212): unsigned. -/
def execSleu (rd rs1 rs2 : GReg) (s : State) : Result :=
  writeGpr rd (setWord (relUnsigned .le (s.gpr rs1) (s.gpr rs2))) s

/-- SGEU (R213): unsigned. -/
def execSgeu (rd rs1 rs2 : GReg) (s : State) : Result :=
  writeGpr rd (setWord (relUnsigned .ge (s.gpr rs1) (s.gpr rs2))) s

/-- SEQUI (R214): unsigned, zero-extended immediate. -/
def execSequi (rd rs1 : GReg) (imm16 : Imm16) (s : State) : Result :=
  writeGpr rd (setWord (relUnsigned .eq (s.gpr rs1) (zextImm imm16))) s

/-- SNEUI (R215): unsigned, zero-extended immediate. -/
def execSneui (rd rs1 : GReg) (imm16 : Imm16) (s : State) : Result :=
  writeGpr rd (setWord (relUnsigned .ne (s.gpr rs1) (zextImm imm16))) s

/-- SLTUI (R216): unsigned, zero-extended immediate. -/
def execSltui (rd rs1 : GReg) (imm16 : Imm16) (s : State) : Result :=
  writeGpr rd (setWord (relUnsigned .lt (s.gpr rs1) (zextImm imm16))) s

/-- SGTUI (R217): unsigned, zero-extended immediate. -/
def execSgtui (rd rs1 : GReg) (imm16 : Imm16) (s : State) : Result :=
  writeGpr rd (setWord (relUnsigned .gt (s.gpr rs1) (zextImm imm16))) s

/-- SLEUI (R218): unsigned, zero-extended immediate. -/
def execSleui (rd rs1 : GReg) (imm16 : Imm16) (s : State) : Result :=
  writeGpr rd (setWord (relUnsigned .le (s.gpr rs1) (zextImm imm16))) s

/-- SGEUI (R219): unsigned, zero-extended immediate. -/
def execSgeui (rd rs1 : GReg) (imm16 : Imm16) (s : State) : Result :=
  writeGpr rd (setWord (relUnsigned .ge (s.gpr rs1) (zextImm imm16))) s

/-! ### NOP -/

/-- NOP (R222): pc + 4 is its only effect. -/
def execNop (s : State) : Result := .next s.advance

end Sys2Proof.Machine
end

