-- ==== Sys2Proof/Machine/Step.lean ====
section
/-! DEFINITION. One step of the machine (70_reset_and_hazards.md R357): fetch, decode, execute. -/

namespace Sys2Proof.Machine

/-- One step: fetch the word at pc, decode it, execute its rule completely (70_reset_and_hazards.md R357), with the
checks in the order of 60_exceptions.md R321. A step is taken only from `running` (10_state.md R45). -/
def step (s : State) : Host.Outcome State Fault Refusal :=
  match s.status with
  | .running =>
    match s.fetchInstr with
    | .ok i => exec i s
    | .error f => raise f
  | .final => .refused .notRunning
  | .faulted _ => .refused .notRunning

/-- The state with an instruction, numbered as spec/opcode_table.json numbers its bits, loaded where step fetches
next: its four bytes at pc, most significant first (20_memory.md R61), and those addresses part of TEXT (R76). It
stands for the loading of a program from outside (log 6). -/
def State.withFetchWord (s : State) (nbits w : Nat) : State :=
  s.placeText s.pc.toNat (beBytes 4 (BitVec.ofNat 32 (w % 2 ^ nbits)))

end Sys2Proof.Machine
end

