-- ==== Sys2Proof/Machine/Assembler.lean ====
section
/-! DEFINITION. The assembler from parsed lines to an image, and the loader (45_assembler.md R290 to R312,
30_encoding.md R107). It acts before reset and is not part of the machine's steps (R290; log 6, log 16). The text of
the lines is read by AssemblerText.lean. -/

namespace Sys2Proof.Machine

open Sys2Proof.Config

/-! ### Parsed lines (R290) -/

/-- A number or a label (R294: an operand is one of the two). -/
inductive AsmValue where
  | number (v : Int)
  | label (name : String)
  deriving DecidableEq, Repr

/-- An operand of an instruction (R296 to R298). -/
inductive AsmOperand where
  /-- `Rn` -/
  | gpr (r : GReg)
  /-- `Fn`, a single register or the name of a pair -/
  | fpr (r : FReg)
  /-- an immediate, a `Dest`, or an address `e` (R297 b) -/
  | value (e : AsmValue)
  /-- `#e`: an immediate and nothing else, the same as `e` there (R298; log 16) -/
  | hashed (e : AsmValue)
  /-- `e(Rn)`, and `(Rn)` as `0(Rn)` (R297 a, c) -/
  | based (e : AsmValue) (base : GReg)
  deriving DecidableEq, Repr

/-- A directive with its operands (R301 to R311). -/
inductive AsmDirective where
  | align (n : Int)
  | ascii (strings : List (List Byte))
  | asciiz (strings : List (List Byte))
  | byte (values : List Int)
  | data (address : Option Int)
  /-- each operand already converted to its pattern (R307) -/
  | double (values : List DWord)
  | globalLabel (name : String)
  | space (size : Int)
  | text (address : Option Int)
  | word (values : List AsmValue)
  deriving DecidableEq, Repr

/-- A statement: an instruction, its mnemonic in lower case (R292), or a directive. -/
inductive AsmStatement where
  | instruction (mnemonic : String) (operands : List AsmOperand)
  | directive (d : AsmDirective)
  deriving DecidableEq, Repr

/-- A line without its comment (R290). -/
structure AsmLine where
  label : Option String
  statement : Option AsmStatement
  deriving DecidableEq, Repr

/-- Why no image is produced (R315). -/
inductive AsmError where
  /-- the text of a line is none of the forms of R290 to R301 -/
  | malformedLine
  /-- a name in statement position that is no mnemonic or directive (R292, R300, R301) -/
  | unknownName (name : String)
  /-- the operands are not of the instruction's shape (R300) -/
  | wrongOperands
  /-- an odd register where a pair is required (R296) -/
  | oddPair
  /-- a value outside the range its field or directive allows (R107, R294, R302, R305, R309, R311) -/
  | outOfRange (v : Int)
  /-- a name used and never declared (R293) -/
  | undeclared (name : String)
  /-- a name declared twice (R293) -/
  | declaredTwice (name : String)
  /-- an instruction at an address that is no multiple of 4 (R301) -/
  | misalignedInstruction (addr : Nat)
  /-- two statements place a byte at one address (R301) -/
  | placedTwice (addr : Nat)
  /-- a byte past the top of the address space (20_memory.md R60) -/
  | outsideMemory (addr : Nat)
  deriving DecidableEq, Repr

/-! ### Values and fields (30_encoding.md R107) -/

/-- The label names declared so far, with their addresses. -/
abbrev AsmSymbols := List (String × Nat)

/-- The integer an operand stands for: a label stands for its address (R298). -/
def AsmValue.resolve (syms : AsmSymbols) : AsmValue → Except AsmError Int
  | .number v => .ok v
  | .label name =>
    match syms.lookup name with
    | some a => .ok a
    | none => .error (.undeclared name)

/-- The k-bit pattern of a value that must lie in lo .. hi. -/
def fitField (k : Nat) (lo hi v : Int) : Except AsmError (BitVec k) :=
  if lo ≤ v ∧ v ≤ hi then .ok (BitVec.ofInt k v) else .error (.outOfRange v)

/-- The number of a pair (R296). -/
def fitPair (r : FReg) : Except AsmError DReg := if isPair r then .ok r else .error .oddPair

/-- The ranges of a 16-bit immediate (R107). -/
inductive ImmRange where
  /-- -32768 .. 32767: 30_encoding.md R101 (a) -/
  | signed
  /-- 0 .. 65535: R101 (b) and LHI -/
  | unsigned
  /-- 0 .. 31: the shifts -/
  | shift
  deriving DecidableEq, Repr

/-- The immediate field of a value (R107). -/
def ImmRange.fit (range : ImmRange) (v : Int) : Except AsmError Imm16 :=
  match range with
  | .signed => fitField 16 (-32768) 32767 v
  | .unsigned => fitField 16 0 65535 v
  | .shift => fitField 16 0 31 v

/-! ### Statement shapes (R300) -/

/-- The operands an instruction is written with, and the term they make. -/
inductive AsmShape where
  /-- `OP Rd,Ra,Rb` -/
  | regs3 (mk : GReg → GReg → GReg → Instr)
  /-- `OP Rd,Ra,Imm` -/
  | regsImm (range : ImmRange) (mk : GReg → GReg → Imm16 → Instr)
  /-- `LHI Rd,Imm` -/
  | regImm (mk : GReg → Imm16 → Instr)
  /-- `Lx Rd,Adr` -/
  | loadG (mk : GReg → GReg → Imm16 → Instr)
  /-- `LF Fd,Adr` -/
  | loadF (mk : FReg → GReg → Imm16 → Instr)
  /-- `LD Dd,Adr` -/
  | loadD (mk : DReg → GReg → Imm16 → Instr)
  /-- `Sx Adr,Rs` -/
  | storeG (mk : GReg → Imm16 → GReg → Instr)
  /-- `SF Adr,Fs` -/
  | storeF (mk : GReg → Imm16 → FReg → Instr)
  /-- `SD Adr,Fs` -/
  | storeD (mk : GReg → Imm16 → DReg → Instr)
  /-- `MOVI2FP Fd,Rs` -/
  | fprGpr (mk : FReg → GReg → Instr)
  /-- `MOVFP2I Rd,Fs` -/
  | gprFpr (mk : GReg → FReg → Instr)
  /-- `MOVI2S SR,Rs`: the one special register is written `fpsr` and is number 0 (R296) -/
  | specialGpr (mk : SReg → GReg → Instr)
  /-- `MOVS2I Rs,SR` -/
  | gprSpecial (mk : GReg → SReg → Instr)
  /-- `OP Fd,Fs` -/
  | fprs2 (mk : FReg → FReg → Instr)
  /-- `OP Dd,Ds` -/
  | dbls2 (mk : DReg → DReg → Instr)
  /-- `OP Dd,Fs` -/
  | dblFpr (mk : DReg → FReg → Instr)
  /-- `OP Fd,Ds` -/
  | fprDbl (mk : FReg → DReg → Instr)
  /-- `OP Fd,Fa,Fb` -/
  | fprs3 (mk : FReg → FReg → FReg → Instr)
  /-- `OP Dd,Da,Db` -/
  | dbls3 (mk : DReg → DReg → DReg → Instr)
  /-- `BEQZ Rt,Dest` -/
  | regDest (mk : GReg → Imm16 → Instr)
  /-- `BFPT Dest` -/
  | dest16 (mk : Imm16 → Instr)
  /-- `J Dest` -/
  | dest26 (mk : Off26 → Instr)
  /-- `JR Rx` -/
  | reg (mk : GReg → Instr)
  /-- `TRAP Imm` -/
  | trapImm (mk : Off26 → Instr)
  /-- `NOP` -/
  | none (i : Instr)

/-- The shapes of data transfer (40_data_transfer.md). -/
def shapesData : List (String × AsmShape) :=
  [("lb", .loadG .lb), ("lbu", .loadG .lbu), ("lh", .loadG .lh), ("lhu", .loadG .lhu), ("lw", .loadG .lw),
   ("lf", .loadF .lf), ("ld", .loadD .ld), ("sb", .storeG .sb), ("sh", .storeG .sh), ("sw", .storeG .sw),
   ("sf", .storeF .sf), ("sd", .storeD .sd), ("movi2fp", .fprGpr .movi2fp), ("movfp2i", .gprFpr .movfp2i),
   ("movf", .fprs2 .movf), ("movd", .dbls2 .movd), ("movi2s", .specialGpr .movi2s),
   ("movs2i", .gprSpecial .movs2i)]

/-- The shapes of arithmetic (41_arithmetic.md). -/
def shapesArithmetic : List (String × AsmShape) :=
  [("add", .regs3 .add), ("addi", .regsImm .signed .addi), ("addu", .regs3 .addu),
   ("addui", .regsImm .unsigned .addui), ("sub", .regs3 .sub), ("subi", .regsImm .signed .subi),
   ("subu", .regs3 .subu), ("subui", .regsImm .unsigned .subui), ("mult", .regs3 .mult), ("multu", .regs3 .multu),
   ("div", .regs3 .div), ("divu", .regs3 .divu)]

/-- The shapes of logic, shifts, sets, NOP (42_logical.md). -/
def shapesLogical : List (String × AsmShape) :=
  [("and", .regs3 .and), ("andi", .regsImm .unsigned .andi), ("or", .regs3 .or), ("ori", .regsImm .unsigned .ori),
   ("xor", .regs3 .xor), ("xori", .regsImm .unsigned .xori), ("lhi", .regImm .lhi), ("sll", .regs3 .sll),
   ("srl", .regs3 .srl), ("sra", .regs3 .sra), ("slli", .regsImm .shift .slli), ("srli", .regsImm .shift .srli),
   ("srai", .regsImm .shift .srai), ("seq", .regs3 .seq), ("sne", .regs3 .sne), ("slt", .regs3 .slt),
   ("sgt", .regs3 .sgt), ("sle", .regs3 .sle), ("sge", .regs3 .sge), ("seqi", .regsImm .signed .seqi),
   ("snei", .regsImm .signed .snei), ("slti", .regsImm .signed .slti), ("sgti", .regsImm .signed .sgti),
   ("slei", .regsImm .signed .slei), ("sgei", .regsImm .signed .sgei), ("sequ", .regs3 .sequ),
   ("sneu", .regs3 .sneu), ("sltu", .regs3 .sltu), ("sgtu", .regs3 .sgtu), ("sleu", .regs3 .sleu),
   ("sgeu", .regs3 .sgeu), ("sequi", .regsImm .unsigned .sequi), ("sneui", .regsImm .unsigned .sneui),
   ("sltui", .regsImm .unsigned .sltui), ("sgtui", .regsImm .unsigned .sgtui),
   ("sleui", .regsImm .unsigned .sleui), ("sgeui", .regsImm .unsigned .sgeui), ("nop", .none .nop)]

/-- The shapes of control (43_control.md). -/
def shapesControl : List (String × AsmShape) :=
  [("beqz", .regDest .beqz), ("bnez", .regDest .bnez), ("bfpt", .dest16 .bfpt), ("bfpf", .dest16 .bfpf),
   ("j", .dest26 .j), ("jr", .reg .jr), ("jal", .dest26 .jal), ("jalr", .reg .jalr), ("trap", .trapImm .trap),
   ("rfe", .dest26 .rfe)]

/-- The shapes of floating point (44_floating_point.md). -/
def shapesFloat : List (String × AsmShape) :=
  [("addd", .dbls3 .addd), ("addf", .fprs3 .addf), ("subd", .dbls3 .subd), ("subf", .fprs3 .subf),
   ("multd", .dbls3 .multd), ("multf", .fprs3 .multf), ("divd", .dbls3 .divd), ("divf", .fprs3 .divf),
   ("cvtf2d", .dblFpr .cvtf2d), ("cvtd2f", .fprDbl .cvtd2f), ("cvtf2i", .fprs2 .cvtf2i),
   ("cvti2f", .fprs2 .cvti2f), ("cvtd2i", .fprDbl .cvtd2i), ("cvti2d", .dblFpr .cvti2d), ("eqd", .dbls2 .eqd),
   ("ned", .dbls2 .ned), ("ltd", .dbls2 .ltd), ("gtd", .dbls2 .gtd), ("led", .dbls2 .led), ("ged", .dbls2 .ged),
   ("eqf", .fprs2 .eqf), ("nef", .fprs2 .nef), ("ltf", .fprs2 .ltf), ("gtf", .fprs2 .gtf), ("lef", .fprs2 .lef),
   ("gef", .fprs2 .gef)]

/-- The shape of every mnemonic (R300). -/
def asmShapes : List (String × AsmShape) :=
  shapesData ++ shapesArithmetic ++ shapesLogical ++ shapesControl ++ shapesFloat

/-! ### One instruction (R107, R296 to R300) -/

/-- The integer of an immediate operand, `#` optional (R298). -/
def fitImmediate (syms : AsmSymbols) : AsmOperand → Except AsmError Int
  | .value e => e.resolve syms
  | .hashed e => e.resolve syms
  | _ => .error .wrongOperands

/-- An address operand: base register and displacement field, a bare `e` meaning `e(R0)` (R297). -/
def fitAddress (syms : AsmSymbols) : AsmOperand → Except AsmError (GReg × Imm16)
  | .based e base => do
    let v ← e.resolve syms
    let d ← ImmRange.signed.fit v
    return (base, d)
  | .value e => do
    let v ← e.resolve syms
    let d ← ImmRange.signed.fit v
    return (0#5, d)
  | _ => .error .wrongOperands

/-- The byte distance from the instruction's own address to a `Dest`, in a signed field of k bits (R299). DESIGN CHOICE
(log 16): a number that is no 32-bit address is accepted where its distance fits, the one check R299 and R107 name. -/
def fitDest (k : Nat) (syms : AsmSymbols) (addr : Nat) (e : AsmValue) : Except AsmError (BitVec k) := do
  let t ← e.resolve syms
  fitField k (-2 ^ (k - 1)) (2 ^ (k - 1) - 1) (t - addr)

/-- The name of the special register, in either case (R296). -/
def isSpecial (name : String) : Bool := name.toList.map Char.toLower == "fpsr".toList

/-- The term of an instruction written at an address (R300). -/
def AsmShape.assemble (syms : AsmSymbols) (addr : Nat) : AsmShape → List AsmOperand → Except AsmError Instr
  | .regs3 mk, [.gpr d, .gpr a, .gpr b] => .ok (mk d a b)
  | .regsImm range mk, [.gpr d, .gpr a, e] => do return mk d a (← range.fit (← fitImmediate syms e))
  | .regImm mk, [.gpr d, e] => do return mk d (← ImmRange.unsigned.fit (← fitImmediate syms e))
  | .loadG mk, [.gpr d, adr] => do
    let (base, disp) ← fitAddress syms adr
    return mk d base disp
  | .loadF mk, [.fpr d, adr] => do
    let (base, disp) ← fitAddress syms adr
    return mk d base disp
  | .loadD mk, [.fpr d, adr] => do
    let (base, disp) ← fitAddress syms adr
    return mk (← fitPair d) base disp
  | .storeG mk, [adr, .gpr r] => do
    let (base, disp) ← fitAddress syms adr
    return mk base disp r
  | .storeF mk, [adr, .fpr r] => do
    let (base, disp) ← fitAddress syms adr
    return mk base disp r
  | .storeD mk, [adr, .fpr r] => do
    let (base, disp) ← fitAddress syms adr
    return mk base disp (← fitPair r)
  | .fprGpr mk, [.fpr d, .gpr a] => .ok (mk d a)
  | .gprFpr mk, [.gpr d, .fpr a] => .ok (mk d a)
  | .specialGpr mk, [.value (.label n), .gpr a] => if isSpecial n then .ok (mk 0#5 a) else .error .wrongOperands
  | .gprSpecial mk, [.gpr d, .value (.label n)] => if isSpecial n then .ok (mk d 0#5) else .error .wrongOperands
  | .fprs2 mk, [.fpr d, .fpr a] => .ok (mk d a)
  | .dbls2 mk, [.fpr d, .fpr a] => do return mk (← fitPair d) (← fitPair a)
  | .dblFpr mk, [.fpr d, .fpr a] => do return mk (← fitPair d) a
  | .fprDbl mk, [.fpr d, .fpr a] => do return mk d (← fitPair a)
  | .fprs3 mk, [.fpr d, .fpr a, .fpr b] => .ok (mk d a b)
  | .dbls3 mk, [.fpr d, .fpr a, .fpr b] => do return mk (← fitPair d) (← fitPair a) (← fitPair b)
  | .regDest mk, [.gpr a, .value e] => do return mk a (← fitDest 16 syms addr e)
  | .dest16 mk, [.value e] => do return mk (← fitDest 16 syms addr e)
  | .dest26 mk, [.value e] => do return mk (← fitDest 26 syms addr e)
  | .reg mk, [.gpr a] => .ok (mk a)
  | .trapImm mk, [e] => do return mk (← fitField 26 0 (2 ^ 26 - 1) (← fitImmediate syms e))
  | .none i, [] => .ok i
  | _, _ => .error .wrongOperands

/-- The term of a mnemonic with operands, at an address. -/
def assembleInstr (syms : AsmSymbols) (addr : Nat) (mnemonic : String) (ops : List AsmOperand) :
    Except AsmError Instr :=
  match asmShapes.lookup mnemonic with
  | some shape => shape.assemble syms addr ops
  | none => .error (.unknownName mnemonic)

/-! ### Location counters (R301) -/

/-- The current section and the two location counters. -/
structure AsmCounters where
  inText : Bool
  textAt : Nat
  dataAt : Nat
  deriving DecidableEq, Repr

/-- Text is current at first, the counters stand at TEXT_BASE and DATA_BASE (R301). -/
def AsmCounters.start (p : AsmParams) : AsmCounters := ⟨true, p.textBase.toNat, p.dataBase.toNat⟩

/-- The current section's counter. -/
def AsmCounters.here (c : AsmCounters) : Nat := if c.inText then c.textAt else c.dataAt

/-- The current section's counter set. -/
def AsmCounters.moveTo (c : AsmCounters) (a : Nat) : AsmCounters :=
  if c.inText then { c with textAt := a } else { c with dataAt := a }

/-- A value that must be a number in lo .. hi, as a natural number. -/
def fitNat (lo hi v : Int) : Except AsmError Nat :=
  if lo ≤ v ∧ v ≤ hi then .ok v.toNat else .error (.outOfRange v)

/-- The bytes a `.space` reserves: any number >= 0 (R309). -/
def fitSize (v : Int) : Except AsmError Nat := if 0 ≤ v then .ok v.toNat else .error (.outOfRange v)

/-- The counters where a section becomes current, its counter set if an address is given (R306, R310). -/
def AsmCounters.switch (c : AsmCounters) (inText : Bool) (address : Option Int) : Except AsmError AsmCounters :=
  match address with
  | some v => do return AsmCounters.moveTo { c with inText := inText } (← fitNat 0 (2 ^ 32 - 1) v)
  | none => .ok { c with inText := inText }

/-- The counters after a statement (R301 to R311). -/
def AsmCounters.after (c : AsmCounters) : AsmStatement → Except AsmError AsmCounters
  | .instruction _ _ => .ok (c.moveTo (c.here + 4))
  | .directive (.align n) => do
    let k ← fitNat 0 31 n
    return c.moveTo ((c.here + 2 ^ k - 1) / 2 ^ k * 2 ^ k)
  | .directive (.ascii strings) => .ok (c.moveTo (c.here + strings.flatten.length))
  | .directive (.asciiz strings) => .ok (c.moveTo (c.here + strings.flatten.length + strings.length))
  | .directive (.byte values) => .ok (c.moveTo (c.here + values.length))
  | .directive (.data address) => c.switch false address
  | .directive (.double values) => .ok (c.moveTo (c.here + 8 * values.length))
  | .directive (.globalLabel _) => .ok c
  | .directive (.space size) => do return c.moveTo (c.here + (← fitSize size))
  | .directive (.text address) => c.switch true address
  | .directive (.word values) => .ok (c.moveTo (c.here + 4 * values.length))

/-- The counters after a line. -/
def AsmCounters.afterLine (c : AsmCounters) (l : AsmLine) : Except AsmError AsmCounters :=
  match l.statement with
  | some st => c.after st
  | none => .ok c

/-! ### First pass: the labels (R293) -/

/-- The symbol table: each label is the counter of the current section where it stands. -/
def collectLabels : AsmCounters → AsmSymbols → List AsmLine → Except AsmError AsmSymbols
  | _, syms, [] => .ok syms
  | c, syms, l :: ls => do
    let c' ← c.afterLine l
    match l.label with
    | none => collectLabels c' syms ls
    | some name =>
      if (syms.lookup name).isSome then .error (.declaredTwice name)
      else if 2 ^ 32 ≤ c.here then .error (.outsideMemory c.here)
      else collectLabels c' ((name, c.here) :: syms) ls

/-! ### Second pass: the bytes (R301 to R312) -/

/-- The bytes of values in order (R305, R311). -/
def fitAll {α : Type} (f : α → Except AsmError (List Byte)) : List α → Except AsmError (List Byte)
  | [] => .ok []
  | v :: vs => do return (← f v) ++ (← fitAll f vs)

/-- The four bytes of an instruction under an ENC (R290, R301), an error where a table that is no legal ENC has no
number for it. -/
def fitInstr (enc : Enc) (i : Instr) : Except AsmError (List Byte) :=
  match encodeBytesWith enc i with
  | some bs => .ok bs
  | none => .error (.unknownName i.mnemonic)

/-- What a statement places at an address, and whether that is an instruction (R301 to R312). -/
def AsmStatement.bytes (enc : Enc) (syms : AsmSymbols) (addr : Nat) :
    AsmStatement → Except AsmError (List Byte × Bool)
  | .instruction m ops =>
    if addr % 4 = 0 then do return (← fitInstr enc (← assembleInstr syms addr m ops), true)
    else .error (.misalignedInstruction addr)
  | .directive (.ascii strings) => .ok (strings.flatten, false)
  | .directive (.asciiz strings) => .ok ((strings.map (· ++ [0#8])).flatten, false)
  | .directive (.byte values) => do
    return (← fitAll (fun v => (fitField 8 (-128) 255 v).map (beBytes 1)) values, false)
  | .directive (.double values) => .ok ((values.map (beBytes 8)).flatten, false)
  | .directive (.word values) => do
    return (← fitAll (fun e => (e.resolve syms).bind (fun v => (fitField 32 (-2 ^ 31) (2 ^ 32 - 1) v).map (beBytes 4)))
      values, false)
  | .directive (.align _) => .ok ([], false)
  | .directive (.data _) => .ok ([], false)
  | .directive (.globalLabel _) => .ok ([], false)
  | .directive (.space _) => .ok ([], false)
  | .directive (.text _) => .ok ([], false)

/-- The result of assembling (R290): the bytes by address, divided into a text and a data part, the addresses of
instructions, and the symbols. A part holds what was placed while its section was current (R301, R312; log 16). -/
structure AsmImage where
  /-- the text part: (address, byte) pairs, addresses rising -/
  textPart : Memory
  /-- the data part: (address, byte) pairs, addresses rising -/
  dataPart : Memory
  /-- the instructions' addresses, each standing for its 4 bytes: TEXT -/
  text : List Nat
  symbols : AsmSymbols
  deriving DecidableEq, Repr

/-- Every byte of the image (R290). -/
def AsmImage.bytes (img : AsmImage) : Memory := img.textPart ++ img.dataPart

/-- The image with a byte in the text or the data part. -/
def AsmImage.addByte (img : AsmImage) (inText : Bool) (addr : Nat) (b : Byte) : AsmImage :=
  if inText then { img with textPart := memInsert addr b img.textPart }
  else { img with dataPart := memInsert addr b img.dataPart }

/-- Bytes placed from an address on: no address twice in either part, none past the top (R301). -/
def AsmImage.placeBytes (img : AsmImage) (inText : Bool) (addr : Nat) : List Byte → Except AsmError AsmImage
  | [] => .ok img
  | b :: bs =>
    if 2 ^ 32 ≤ addr then .error (.outsideMemory addr)
    else if (memLookup img.bytes addr).isSome then .error (.placedTwice addr)
    else AsmImage.placeBytes (img.addByte inText addr b) inText (addr + 1) bs

/-- The image with an instruction's address in TEXT, if the statement is one (R301). -/
def AsmImage.addText (img : AsmImage) (isInstr : Bool) (addr : Nat) : AsmImage :=
  if isInstr then { img with text := addr :: img.text } else img

/-- The image after the lines, from the image before them and the symbols of the first pass. -/
def emitLines (enc : Enc) : AsmCounters → AsmImage → List AsmLine → Except AsmError AsmImage
  | _, img, [] => .ok img
  | c, img, l :: ls =>
    match l.statement with
    | none => emitLines enc c img ls
    | some st => do
      let (bs, isInstr) ← st.bytes enc img.symbols c.here
      let img' ← img.placeBytes c.inText c.here bs
      let c' ← c.after st
      emitLines enc c' (img'.addText isInstr c.here) ls

/-- Two-pass assembly under the parameters (R290, R293). -/
def assembleLines (p : AsmParams) (ls : List AsmLine) : Except AsmError AsmImage := do
  let syms ← collectLabels (.start p) [] ls
  emitLines p.enc (.start p) ⟨[], [], [], syms⟩ ls

/-! ### Loading (10_state.md R46) -/

/-- The image fits the memory of a state: every byte lies in MEM_MAP (20_memory.md R76: TEXT is a subset of it). -/
def AsmImage.fits (img : AsmImage) (s : State) : Bool :=
  img.bytes.all (fun c => inRegions s.params.memMap c.1)

/-- The state with an image loaded: its bytes written, its instructions made TEXT; none where a byte lies outside
MEM_MAP (log 16). `State.resetWith` the run's parameters, with an image loaded, is the spec's reset state (10_state.md
R46). -/
def State.load (s : State) (img : AsmImage) : Option State :=
  if img.fits s then
    let t := img.bytes.foldl (fun t c => t.writeByte c.1 c.2) s
    some { t with params := { t.params with text := img.text.map (fun a => ⟨a, 4⟩) ++ t.params.text } }
  else none

end Sys2Proof.Machine
end

