-- ==== Sys2Proof/Machine/AssemblerText.lean ====
section
/-! DEFINITION. The text of an assembly source file (45_assembler.md R290 to R300), read into the lines of
Assembler.lean. Everything is structural recursion over lists of characters and tokens. -/

namespace Sys2Proof.Machine

/-! ### Characters and tokens -/

/-- A token of a line. -/
inductive AsmToken where
  /-- a run of letters, digits, `_`, `.`, `+`, `-`: a name, a number or a floating-point literal -/
  | word (cs : List Char)
  /-- a string after its escapes (R295) -/
  | str (bytes : List Byte)
  | comma | colon | lparen | rparen | hash
  deriving DecidableEq, Repr

/-- `0` .. `9` -/
def isAsmDigit (c : Char) : Bool := '0' ≤ c && c ≤ '9'

/-- An ASCII letter (log 16). -/
def isAsmLetter (c : Char) : Bool := ('a' ≤ c && c ≤ 'z') || ('A' ≤ c && c ≤ 'Z')

/-- A character of a name (R292). -/
def isNameChar (c : Char) : Bool := isAsmDigit c || isAsmLetter c || c == '_' || c == '.'

/-- A character of a word: of a name or of a signed number. -/
def isWordChar (c : Char) : Bool := isNameChar c || c == '+' || c == '-'

/-- Blanks (R300); a carriage return before the end of a line counts as one (log 16). -/
def isBlank (c : Char) : Bool := c == ' ' || c == '\t' || c == '\r'

/-- Where the reading of a line stands. -/
inductive LexMode where
  | plain
  /-- inside a word, its characters so far, last first -/
  | inWord (acc : List Char)
  /-- inside a string, its bytes so far, last first -/
  | inString (acc : List Byte)
  /-- after a backslash inside a string -/
  | inEscape (acc : List Byte)
  deriving DecidableEq, Repr

/-- A character outside words and strings: the token it makes alone, none for a blank. -/
def lexSingle (c : Char) : Except AsmError (Option AsmToken) :=
  if isBlank c then .ok none
  else if c == ',' then .ok (some .comma)
  else if c == ':' then .ok (some .colon)
  else if c == '(' then .ok (some .lparen)
  else if c == ')' then .ok (some .rparen)
  else if c == '#' then .ok (some .hash)
  else .error .malformedLine

/-- The bytes of an escape (R295). -/
def lexEscape (c : Char) : Except AsmError Byte :=
  if c == 'n' then .ok 0x0A#8
  else if c == 't' then .ok 0x09#8
  else if c == '"' then .ok 0x22#8
  else .error .malformedLine

/-- The tokens of a line, its comment dropped (R291, R295). -/
def lexLine : LexMode → List Char → Except AsmError (List AsmToken)
  | .plain, [] => .ok []
  | .inWord acc, [] => .ok [.word acc.reverse]
  | .inString _, [] => .error .malformedLine
  | .inEscape _, [] => .error .malformedLine
  | .plain, c :: cs =>
    if c == ';' then .ok []
    else if c == '"' then lexLine (.inString []) cs
    else if isWordChar c then lexLine (.inWord [c]) cs
    else do
      let t ← lexSingle c
      return t.toList ++ (← lexLine .plain cs)
  | .inWord acc, c :: cs =>
    if isWordChar c then lexLine (.inWord (c :: acc)) cs
    else if c == ';' then .ok [.word acc.reverse]
    else if c == '"' then do return .word acc.reverse :: (← lexLine (.inString []) cs)
    else do
      let t ← lexSingle c
      return .word acc.reverse :: (t.toList ++ (← lexLine .plain cs))
  | .inString acc, c :: cs =>
    if c == '"' then do return .str acc.reverse :: (← lexLine .plain cs)
    else if c == '\\' then lexLine (.inEscape acc) cs
    else if c.toNat < 128 then lexLine (.inString (BitVec.ofNat 8 c.toNat :: acc)) cs
    else .error .malformedLine
  | .inEscape acc, c :: cs => do lexLine (.inString ((← lexEscape c) :: acc)) cs

/-! ### Numbers (R294, R307) -/

/-- The value of a digit of either case, at most 15. -/
def digitValue (c : Char) : Nat :=
  if isAsmDigit c then c.toNat - '0'.toNat else c.toLower.toNat - 'a'.toNat + 10

/-- A hexadecimal digit. -/
def isHexDigit (c : Char) : Bool := isAsmDigit c || ('a' ≤ c.toLower && c.toLower ≤ 'f')

/-- The number a list of digits denotes. -/
def digitsValue (radix : Nat) (cs : List Char) : Nat := cs.foldl (fun n c => n * radix + digitValue c) 0

/-- A decimal digit string. -/
def parseDigits (cs : List Char) : Option Nat :=
  if cs.all isAsmDigit && !cs.isEmpty then some (digitsValue 10 cs) else none

/-- A number: decimal with an optional leading `-`, or `0x` and hexadecimal digits (R294). -/
def parseNumber : List Char → Option Int
  | '-' :: cs => (parseDigits cs).map (fun n => -(n : Int))
  | '0' :: 'x' :: cs => if cs.all isHexDigit && !cs.isEmpty then some (digitsValue 16 cs : Int) else none
  | cs => (parseDigits cs).map (fun n => (n : Int))

/-- An optional sign, then the rest. -/
def takeSign : List Char → Bool × List Char
  | '-' :: cs => (true, cs)
  | '+' :: cs => (false, cs)
  | cs => (false, cs)

/-- An optionally signed decimal exponent. -/
def parseExponent (cs : List Char) : Option Int :=
  (parseDigits (takeSign cs).2).map (signedMag (takeSign cs).1)

/-- The pattern of (-1)^neg * digits * 10^e, rounded to nearest-even (R307). -/
def doubleOfDecimal (neg : Bool) (digits : Nat) (e : Int) : DWord :=
  BitVec.ofNat 64 (binary64.round neg (digits * 10 ^ e.toNat) (10 ^ (-e).toNat) 0)

/-- A floating-point literal: sign, digits, optional `.` and digits, optional exponent (R307). -/
def parseDouble (cs : List Char) : Option DWord :=
  let (neg, cs) := takeSign cs
  let (mant, tail) := cs.span (fun c => c != 'e' && c != 'E')
  let (whole, point) := mant.span isAsmDigit
  let exponent : Option Int := match tail with
    | [] => some 0
    | _ :: ds => parseExponent ds
  let fraction : Option (List Char) := match point with
    | [] => some []
    | '.' :: ds => if ds.all isAsmDigit && !ds.isEmpty then some ds else none
    | _ => none
  match fraction, exponent with
  | some ds, some e =>
    if whole.isEmpty then none
    else some (doubleOfDecimal neg (digitsValue 10 (whole ++ ds)) (e - (ds.length : Int)))
  | _, _ => none

/-! ### Names, registers, values (R292, R296, R298) -/

/-- A register number 0 .. 31 in decimal. -/
def parseRegNumber (cs : List Char) : Option (BitVec 5) :=
  match parseDigits cs with
  | some n => if n < 32 then some (BitVec.ofNat 5 n) else none
  | none => none

/-- A general register, either case (R296). -/
def parseGpr : List Char → Option GReg
  | c :: cs => if c.toLower == 'r' then parseRegNumber cs else none
  | [] => none

/-- A floating-point register, either case (R296). -/
def parseFpr : List Char → Option FReg
  | c :: cs => if c.toLower == 'f' then parseRegNumber cs else none
  | [] => none

/-- A name: letters, digits, `_` and `.`, the first no digit (R292). -/
def parseName (cs : List Char) : Option String :=
  match cs with
  | [] => none
  | c :: _ => if cs.all isNameChar && !isAsmDigit c then some (String.ofList cs) else none

/-- A name that a label may have: not a register's (R292). -/
def parseLabel (cs : List Char) : Option String :=
  if (parseGpr cs).isSome || (parseFpr cs).isSome then none else parseName cs

/-- A number or a label. -/
def parseValue (cs : List Char) : Except AsmError AsmValue :=
  match parseNumber cs with
  | some v => .ok (.number v)
  | none =>
    match parseLabel cs with
    | some n => .ok (.label n)
    | none => .error .malformedLine

/-! ### Operands (R296 to R300) -/

/-- The token lists between commas. -/
def splitCommas : List AsmToken → List (List AsmToken)
  | [] => [[]]
  | .comma :: ts => [] :: splitCommas ts
  | t :: ts =>
    match splitCommas ts with
    | g :: gs => (t :: g) :: gs
    | [] => [[t]]

/-- The operands' token lists: none for no tokens at all. -/
def operandGroups (ts : List AsmToken) : List (List AsmToken) := if ts.isEmpty then [] else splitCommas ts

/-- One operand of an instruction. A `#` stands before immediates only (R298; log 16). DESIGN CHOICE (log 16): blanks
may stand between any two tokens, between `#` and its value too. -/
def parseOperand : List AsmToken → Except AsmError AsmOperand
  | [.word w] =>
    match parseGpr w with
    | some r => .ok (.gpr r)
    | none =>
      match parseFpr w with
      | some r => .ok (.fpr r)
      | none => (parseValue w).map .value
  | [.hash, .word w] => (parseValue w).map .hashed
  | [.lparen, .word b, .rparen] =>
    match parseGpr b with
    | some r => .ok (.based (.number 0) r)
    | none => .error .malformedLine
  | [.word w, .lparen, .word b, .rparen] =>
    match parseGpr b with
    | some r => (parseValue w).map (fun e => .based e r)
    | none => .error .malformedLine
  | _ => .error .malformedLine

/-- What a directive's operand group must be: one word, read by f. -/
def parseWord {α : Type} (f : List Char → Option α) : List AsmToken → Except AsmError α
  | [.word w] =>
    match f w with
    | some v => .ok v
    | none => .error .malformedLine
  | _ => .error .malformedLine

/-- A string operand (R295). -/
def parseString : List AsmToken → Except AsmError (List Byte)
  | [.str bs] => .ok bs
  | _ => .error .malformedLine

/-- Every group read by f. -/
def parseAll {α : Type} (f : List AsmToken → Except AsmError α) : List (List AsmToken) → Except AsmError (List α)
  | [] => .ok []
  | g :: gs => do return (← f g) :: (← parseAll f gs)

/-- At least one operand, each read by f. -/
def parseSome {α : Type} (f : List AsmToken → Except AsmError α) (gs : List (List AsmToken)) :
    Except AsmError (List α) :=
  if gs.isEmpty then .error .malformedLine else parseAll f gs

/-- Exactly one operand. -/
def parseOne {α : Type} (f : List AsmToken → Except AsmError α) : List (List AsmToken) → Except AsmError α
  | [g] => f g
  | _ => .error .malformedLine

/-- The optional address of `.data` and `.text`. -/
def parseAddress (gs : List (List AsmToken)) : Except AsmError (Option Int) :=
  match gs with
  | [] => .ok none
  | _ => (parseOne (parseWord parseNumber) gs).map some

/-- A number or label operand of a directive. -/
def parseValueWord (g : List AsmToken) : Except AsmError AsmValue :=
  match g with
  | [.word w] => parseValue w
  | _ => .error .malformedLine

/-! ### Statements and lines (R290, R301) -/

/-- A directive by its name and operand groups (R301). DESIGN CHOICE (log 16): its name is in lower case, as R301
lists it; the spec says of mnemonics, registers and labels alone whether case matters (R292). -/
def parseDirective (name : String) (gs : List (List AsmToken)) : Except AsmError AsmDirective :=
  if name == ".align" then (parseOne (parseWord parseNumber) gs).map .align
  else if name == ".ascii" then (parseSome parseString gs).map .ascii
  else if name == ".asciiz" then (parseSome parseString gs).map .asciiz
  else if name == ".byte" then (parseSome (parseWord parseNumber) gs).map .byte
  else if name == ".data" then (parseAddress gs).map .data
  else if name == ".double" then (parseSome (parseWord parseDouble) gs).map .double
  else if name == ".global" then (parseOne (parseWord parseLabel) gs).map .globalLabel
  else if name == ".space" then (parseOne (parseWord parseNumber) gs).map .space
  else if name == ".text" then (parseAddress gs).map .text
  else if name == ".word" then (parseSome parseValueWord gs).map .word
  else .error (.unknownName name)

/-- A statement: its first word is the mnemonic, in either case (R292), or the directive. -/
def parseStatement : List AsmToken → Except AsmError (Option AsmStatement)
  | [] => .ok none
  | .word w :: ts =>
    match w with
    | '.' :: _ => (parseDirective (String.ofList w) (operandGroups ts)).map (fun d => some (.directive d))
    | _ => do
      let ops ← parseAll parseOperand (operandGroups ts)
      return some (.instruction (String.ofList (w.map Char.toLower)) ops)
  | _ => .error .malformedLine

/-- A line's tokens: an optional label declaration, then an optional statement (R290, R293). -/
def parseTokens : List AsmToken → Except AsmError AsmLine
  | .word w :: .colon :: ts =>
    match parseLabel w with
    | some n => (parseStatement ts).map (fun st => ⟨some n, st⟩)
    | none => .error .malformedLine
  | ts => (parseStatement ts).map (fun st => ⟨none, st⟩)

/-- One line. -/
def parseLine (cs : List Char) : Except AsmError AsmLine := do parseTokens (← lexLine .plain cs)

/-- The lines of a text. -/
def splitLines : List Char → List (List Char)
  | [] => [[]]
  | c :: cs =>
    match splitLines cs with
    | l :: ls => if c == '\n' then [] :: l :: ls else (c :: l) :: ls
    | [] => [[c]]

/-- Every line read. -/
def parseLines : List (List Char) → Except AsmError (List AsmLine)
  | [] => .ok []
  | l :: ls => do return (← parseLine l) :: (← parseLines ls)

/-- The assembler: from a source text and the parameters to an image (R290). -/
def assemble (p : Config.AsmParams) (source : String) : Except AsmError AsmImage := do
  assembleLines p (← parseLines (splitLines source.toList))

end Sys2Proof.Machine
end

