-- ==== Sys2Proof/Safety.lean ====
section
/-! DEFINITION. The terms the statements use: the invariant of the machine, safe runs, what an instruction leaves
unchanged, which instructions access memory and how, which faults an instruction can raise, and the real values of
floating-point patterns. -/

namespace Sys2Proof.Machine

open Sys2Proof.Config

/-! ### The invariant and safe runs -/

/-- What holds in every state a run reaches. -/
structure State.Inv (s : State) : Prop where
  /-- memory is in its canonical form -/
  memory : Memory.wf s.params.unwrittenRead s.mem = true
  /-- the storage of R0 holds zero (10_state.md R31) -/
  zero : s.x[0] = 0#32
  /-- TEXT is a subset of MEM_MAP (20_memory.md R76) and of the address space (R60) -/
  textMapped : ∀ a, inRegions s.params.text a = true → inRegions s.params.memMap a = true ∧ a < 2 ^ 32
  /-- every byte of TEXT has a value: it is part of the loaded image (20_memory.md R77) -/
  textLoaded : ∀ a, inRegions s.params.text a = true → (s.readByte a).isSome = true

/-- k steps can be taken with no fault: what a safe run is (60_exceptions.md R322). -/
def RunsSafely (k : Nat) (s : State) : Prop := ∃ t, Sys2Proof.core.run k s = .next t

/-- The run ended well (60_exceptions.md R326). -/
def Finished (s : State) : Prop := s.status = .final

/-! ### What is left unchanged -/

/-- Every byte of memory reads as before. -/
def SameMemory (s t : State) : Prop := ∀ a : Nat, t.readByte a = s.readByte a

/-- Every general register reads as before. -/
def SameGprs (s t : State) : Prop := ∀ q : GReg, t.gpr q = s.gpr q

/-- Every floating-point register reads as before. -/
def SameFprs (s t : State) : Prop := ∀ q : FReg, t.fpr q = s.fpr q

/-- The run status, the parameters and the draw counter are as before. -/
structure SameRest (s t : State) : Prop where
  status : t.status = s.status
  params : t.params = s.params
  draws : t.draws = s.draws

/-- t is s with v in general register rd (R0 keeps reading zero) and pc + 4; nothing else differs. -/
structure GprResult (rd : GReg) (v : Word) (s t : State) : Prop where
  value : t.gpr rd = if rd = 0#5 then 0#32 else v
  others : ∀ q, q ≠ rd → t.gpr q = s.gpr q
  fprs : SameFprs s t
  fpsrC : t.fpsrC = s.fpsrC
  pc : t.pc = s.pc + 4#32
  memory : SameMemory s t
  rest : SameRest s t

/-- t is s with pc + 4 and floating-point register rd changed; nothing else differs but the draw counter, of which
nothing is said. -/
structure FprFrame (rd : FReg) (s t : State) : Prop where
  gprs : SameGprs s t
  others : ∀ q, q ≠ rd → t.fpr q = s.fpr q
  fpsrC : t.fpsrC = s.fpsrC
  pc : t.pc = s.pc + 4#32
  memory : SameMemory s t
  status : t.status = s.status
  params : t.params = s.params

/-- t is s with v in floating-point register rd and pc + 4. -/
structure FprResult (rd : FReg) (v : Word) (s t : State) : Prop extends FprFrame rd s t where
  value : t.fpr rd = v

/-- t is s with pc + 4 and the pair rd, rd + 1 changed; nothing else differs but the draw counter, of which nothing
is said. -/
structure DblFrame (rd : DReg) (s t : State) : Prop where
  gprs : SameGprs s t
  others : ∀ q, q ≠ rd → q ≠ rd + 1#5 → t.fpr q = s.fpr q
  fpsrC : t.fpsrC = s.fpsrC
  pc : t.pc = s.pc + 4#32
  memory : SameMemory s t
  status : t.status = s.status
  params : t.params = s.params

/-- t is s with v in the pair rd, rd + 1, the high word in rd (10_state.md R37), and pc + 4. -/
structure DblResult (rd : DReg) (v : DWord) (s t : State) : Prop extends DblFrame rd s t where
  high : t.fpr rd = v.extractLsb' 32 32
  low : t.fpr (rd + 1#5) = v.extractLsb' 0 32

/-- t is s with fpsr.c as given and pc + 4; nothing else differs. -/
structure CompareResult (c : Bool) (s t : State) : Prop where
  fpsrC : t.fpsrC = c
  gprs : SameGprs s t
  fprs : SameFprs s t
  pc : t.pc = s.pc + 4#32
  memory : SameMemory s t
  rest : SameRest s t

/-- t is s with the pc at target; nothing else differs. -/
structure JumpResult (target : Word) (s t : State) : Prop where
  pc : t.pc = target
  gprs : SameGprs s t
  fprs : SameFprs s t
  fpsrC : t.fpsrC = s.fpsrC
  memory : SameMemory s t
  rest : SameRest s t

/-- t is s with the pc at target and pc + 4 of s in R31; nothing else differs. -/
structure LinkResult (target : Word) (s t : State) : Prop where
  pc : t.pc = target
  link : t.gpr 31#5 = s.pc + 4#32
  others : ∀ q, q ≠ 31#5 → t.gpr q = s.gpr q
  fprs : SameFprs s t
  fpsrC : t.fpsrC = s.fpsrC
  memory : SameMemory s t
  rest : SameRest s t

/-- t is s with the bytes stored from a on and pc + 4; every byte outside a .. a + length - 1 reads as before, and
nothing else differs. -/
structure StoreResult (a : Nat) (bs : List Byte) (s t : State) : Prop where
  stored : ∀ k, k < bs.length → t.readByte (a + k) = bs[k]?
  outside : ∀ b, ¬(a ≤ b ∧ b < a + bs.length) → t.readByte b = s.readByte b
  gprs : SameGprs s t
  fprs : SameFprs s t
  fpsrC : t.fpsrC = s.fpsrC
  pc : t.pc = s.pc + 4#32
  rest : SameRest s t

/-! ### Accesses -/

/-- Every byte addr .. addr + n - 1 lies in MEM_MAP. -/
def Mapped (s : State) (addr : Word) (n : Nat) : Prop := ∀ k < n, inRegions s.params.memMap (addr.toNat + k) = true

/-- No byte addr .. addr + n - 1 lies in TEXT. -/
def OutsideText (s : State) (addr : Word) (n : Nat) : Prop := ∀ k < n, inRegions s.params.text (addr.toNat + k) = false

/-- The bytes can be loaded from addr on as one access: aligned, mapped, and each byte reads as listed. -/
structure Loadable (s : State) (addr : Word) (bs : List Byte) : Prop where
  aligned : addr.toNat % bs.length = 0
  mapped : Mapped s addr bs.length
  bytes : ∀ k < bs.length, s.readByte (addr.toNat + k) = bs[k]?

/-- n bytes can be stored from addr on as one access. -/
structure Storable (s : State) (addr : Word) (n : Nat) : Prop where
  aligned : addr.toNat % n = 0
  mapped : Mapped s addr n
  outsideText : OutsideText s addr n

/-- The base register, displacement and width of a load (20_memory.md R65). -/
def loadAccess : Instr → Option (GReg × Imm16 × Nat)
  | .lb _ rs1 imm16 => some (rs1, imm16, 1)
  | .lbu _ rs1 imm16 => some (rs1, imm16, 1)
  | .lh _ rs1 imm16 => some (rs1, imm16, 2)
  | .lhu _ rs1 imm16 => some (rs1, imm16, 2)
  | .lw _ rs1 imm16 => some (rs1, imm16, 4)
  | .lf _ rs1 imm16 => some (rs1, imm16, 4)
  | .ld _ rs1 imm16 => some (rs1, imm16, 8)
  | _ => none

/-- The base register, displacement and width of a store (20_memory.md R65). -/
def storeAccess : Instr → Option (GReg × Imm16 × Nat)
  | .sb rs1 imm16 _ => some (rs1, imm16, 1)
  | .sh rs1 imm16 _ => some (rs1, imm16, 2)
  | .sw rs1 imm16 _ => some (rs1, imm16, 4)
  | .sf rs1 imm16 _ => some (rs1, imm16, 4)
  | .sd rs1 imm16 _ => some (rs1, imm16, 8)
  | _ => none

/-- The bytes a store places, in the order of their addresses: the low bytes of its data, most significant first
(20_memory.md R61). -/
def storedBytes (s : State) : Instr → List Byte
  | .sb _ _ rd => [(s.gpr rd).extractLsb' 0 8]
  | .sh _ _ rd => [(s.gpr rd).extractLsb' 8 8, (s.gpr rd).extractLsb' 0 8]
  | .sw _ _ rd => wordBytes (s.gpr rd)
  | .sf _ _ rd => wordBytes (s.fpr rd)
  | .sd _ _ rd => wordBytes (s.fpr rd) ++ wordBytes (s.fpr (rd + 1#5))
  | _ => []
where
  /-- The bytes of a word, most significant first. -/
  wordBytes (w : Word) : List Byte :=
    [w.extractLsb' 24 8, w.extractLsb' 16 8, w.extractLsb' 8 8, w.extractLsb' 0 8]

/-- t is s with the bytes, in the order of their addresses, in the load's destination as its rule says
(40_data_transfer.md R131 to R137), and pc + 4; nothing else differs. -/
def LoadResult (bs : List Byte) (s t : State) : Instr → Prop
  | .lb rd _ _ => ∃ b0, bs = [b0] ∧ GprResult rd (BitVec.ofInt 32 b0.toInt) s t
  | .lbu rd _ _ => ∃ b0, bs = [b0] ∧ GprResult rd (BitVec.ofNat 32 b0.toNat) s t
  | .lh rd _ _ => ∃ b0 b1, bs = [b0, b1] ∧ GprResult rd (BitVec.ofInt 32 (b0 ++ b1 : BitVec 16).toInt) s t
  | .lhu rd _ _ => ∃ b0 b1, bs = [b0, b1] ∧ GprResult rd (BitVec.ofNat 32 (b0 ++ b1 : BitVec 16).toNat) s t
  | .lw rd _ _ => ∃ b0 b1 b2 b3, bs = [b0, b1, b2, b3] ∧ GprResult rd (b0 ++ b1 ++ b2 ++ b3) s t
  | .lf rd _ _ => ∃ b0 b1 b2 b3, bs = [b0, b1, b2, b3] ∧ FprResult rd (b0 ++ b1 ++ b2 ++ b3) s t
  | .ld rd _ _ => ∃ b0 b1 b2 b3 b4 b5 b6 b7, bs = [b0, b1, b2, b3, b4, b5, b6, b7] ∧
      DblResult rd ((b0 ++ b1 ++ b2 ++ b3 : Word) ++ (b4 ++ b5 ++ b6 ++ b7 : Word)) s t
  | _ => False

/-! ### Kinds of instructions -/

/-- The twelve floating-point compares. -/
def isCompare : Instr → Bool
  | .eqd _ _ | .ned _ _ | .ltd _ _ | .gtd _ _ | .led _ _ | .ged _ _ => true
  | .eqf _ _ | .nef _ _ | .ltf _ _ | .gtf _ _ | .lef _ _ | .gef _ _ => true
  | _ => false

/-- TRAP, whatever its number. -/
def isTrap : Instr → Bool
  | .trap _ => true
  | _ => false

/-- The general register an instruction writes (10_state.md R32). -/
def gprDest : Instr → Option GReg
  | .lb rd _ _ | .lbu rd _ _ | .lh rd _ _ | .lhu rd _ _ | .lw rd _ _ => some rd
  | .movfp2i rd _ | .lhi rd _ => some rd
  | .add rd _ _ | .addu rd _ _ | .sub rd _ _ | .subu rd _ _ => some rd
  | .mult rd _ _ | .multu rd _ _ | .div rd _ _ | .divu rd _ _ => some rd
  | .addi rd _ _ | .addui rd _ _ | .subi rd _ _ | .subui rd _ _ => some rd
  | .and rd _ _ | .or rd _ _ | .xor rd _ _ | .sll rd _ _ | .srl rd _ _ | .sra rd _ _ => some rd
  | .andi rd _ _ | .ori rd _ _ | .xori rd _ _ | .slli rd _ _ | .srli rd _ _ | .srai rd _ _ => some rd
  | .seq rd _ _ | .sne rd _ _ | .slt rd _ _ | .sgt rd _ _ | .sle rd _ _ | .sge rd _ _ => some rd
  | .seqi rd _ _ | .snei rd _ _ | .slti rd _ _ | .sgti rd _ _ | .slei rd _ _ | .sgei rd _ _ => some rd
  | .sequ rd _ _ | .sneu rd _ _ | .sltu rd _ _ | .sgtu rd _ _ | .sleu rd _ _ | .sgeu rd _ _ => some rd
  | .sequi rd _ _ | .sneui rd _ _ | .sltui rd _ _ | .sgtui rd _ _ | .sleui rd _ _ | .sgeui rd _ _ => some rd
  | .jal _ => some 31#5
  | .jalr _ => some 31#5
  | _ => none

/-- The floating-point registers an instruction writes (10_state.md R37, R39). -/
def fprDests : Instr → List FReg
  | .lf rd _ _ | .movi2fp rd _ | .movf rd _ => [rd]
  | .ld rd _ _ | .movd rd _ => [rd, rd + 1#5]
  | .addf rd _ _ | .subf rd _ _ | .multf rd _ _ | .divf rd _ _ => [rd]
  | .addd rd _ _ | .subd rd _ _ | .multd rd _ _ | .divd rd _ _ => [rd, rd + 1#5]
  | .cvtd2f rd _ | .cvtf2i rd _ | .cvti2f rd _ | .cvtd2i rd _ => [rd]
  | .cvtf2d rd _ | .cvti2d rd _ => [rd, rd + 1#5]
  | _ => []

/-- The instruction can raise the fault while it executes (60_exceptions.md R338; the fetch and decode faults are the
step's). -/
def mayRaise (i : Instr) : Fault → Prop
  | .fetchMisaligned _ => False
  | .fetchFault _ => False
  | .illegalInstruction _ => False
  | .notImplemented .movi2s => ∃ rd rs1, i = .movi2s rd rs1
  | .notImplemented .movs2i => ∃ rd rs1, i = .movs2i rd rs1
  | .notImplemented .rfe => ∃ off26, i = .rfe off26
  | .unwrittenRead _ => (loadAccess i).isSome = true
  | .addressMisaligned _ n => n ≠ 1 ∧ ∃ r d, loadAccess i = some (r, d, n) ∨ storeAccess i = some (r, d, n)
  | .accessFault _ n => ∃ r d, loadAccess i = some (r, d, n) ∨ storeAccess i = some (r, d, n)
  | .storeToText _ n => ∃ r d, storeAccess i = some (r, d, n)
  | .integerOverflow =>
    (∃ rd rs1 rs2, i = .add rd rs1 rs2 ∨ i = .sub rd rs1 rs2 ∨ i = .mult rd rs1 rs2 ∨ i = .div rd rs1 rs2) ∨
      ∃ rd rs1 imm16, i = .addi rd rs1 imm16 ∨ i = .subi rd rs1 imm16
  | .divideByZero => ∃ rd rs1 rs2, i = .div rd rs1 rs2 ∨ i = .divu rd rs1 rs2
  | .unhandledTrap n => n ≠ 0 ∧ ∃ off26 : Off26, i = .trap off26 ∧ off26.toNat = n

/-! ### Real values of floating-point patterns (44_floating_point.md R250, R251) -/

/-- The rational number of a finite value; 0 for the others, of which it means nothing. -/
def FpValue.toRat : FpValue → ℚ
  | .nan => 0
  | .inf _ => 0
  | .finite neg m e => (if neg then -1 else 1) * (m : ℚ) * (2 : ℚ) ^ e

/-- The value is a number, zero included. -/
def FpValue.isFinite : FpValue → Bool
  | .nan => false
  | .inf _ => false
  | .finite _ _ _ => true

/-- The sign bit of a pattern. -/
def FpFormat.isNegative (φ : FpFormat) (bits : Nat) : Bool := bits.testBit (φ.expBits + φ.fracBits)

/-- The least magnitude that rounds to an infinity: half a unit past the largest finite number. -/
def FpFormat.overflowBound (φ : FpFormat) : ℚ :=
  (2 : ℚ) ^ (2 ^ (φ.expBits - 1) - 1) * (2 - 1 / (2 : ℚ) ^ (φ.fracBits + 1))

/-- The pattern is x rounded to nearest, ties to even (44_floating_point.md R251): from the overflow bound on the
infinity of x's sign; below it a finite number no finite number is nearer than, the one with an even last bit where
another is as near; the sign is x's unless x is zero. -/
structure FpFormat.RoundsTo (φ : FpFormat) (x : ℚ) (bits : Nat) : Prop where
  overflow : φ.overflowBound ≤ |x| → bits = φ.infBits (decide (x < 0))
  finite : |x| < φ.overflowBound → (φ.decode bits).isFinite = true
  nearest : |x| < φ.overflowBound → ∀ c, (φ.decode c).isFinite = true →
    |x - (φ.decode bits).toRat| ≤ |x - (φ.decode c).toRat|
  even : |x| < φ.overflowBound → ∀ c, (φ.decode c).isFinite = true →
    (φ.decode c).toRat ≠ (φ.decode bits).toRat → |x - (φ.decode c).toRat| = |x - (φ.decode bits).toRat| →
      bits % 2 = 0
  sign : x ≠ 0 → φ.isNegative bits = decide (x < 0)

/-- The value as a point of the extended line; none for a NaN, which is no such point. -/
def FpValue.extended : FpValue → Option (WithBot (WithTop ℚ))
  | .nan => none
  | .inf true => some ⊥
  | .inf false => some ((⊤ : WithTop ℚ) : WithBot (WithTop ℚ))
  | .finite neg m e => some (((FpValue.finite neg m e).toRat : WithTop ℚ) : WithBot (WithTop ℚ))

/-- The relation of two points, left one first. -/
def relBetween {α : Type} [LT α] [LE α] (r : Rel) (x y : α) : Prop :=
  match r with
  | .eq => x = y
  | .ne => x ≠ y
  | .lt => x < y
  | .gt => x > y
  | .le => x ≤ y
  | .ge => x ≥ y

/-- c says whether the relation holds of the two values, left one first (44_floating_point.md R254). -/
structure ComparesAs (r : Rel) (v w : FpValue) (c : Bool) : Prop where
  /-- with a NaN only NE holds -/
  unordered : v.extended = none ∨ w.extended = none → c = decide (r = .ne)
  /-- otherwise the relation of the extended line -/
  ordered : ∀ x y, v.extended = some x → w.extended = some y → (c = true ↔ relBetween r x y)

/-- o is the value truncated toward zero, where that lies in -2^31 .. 2^31-1, and none where it does not or there is
none (44_floating_point.md R254). -/
structure TruncatesTo (v : FpValue) (o : Option Word) : Prop where
  noValue : v.isFinite = false → o = none
  truncated : v.isFinite = true → ∀ i : Int, |(i : ℚ)| ≤ |v.toRat| → |v.toRat| < |(i : ℚ)| + 1 →
    0 ≤ (i : ℚ) * v.toRat → o = if -2 ^ 31 ≤ i ∧ i ≤ 2 ^ 31 - 1 then some (BitVec.ofInt 32 i) else none

/-- The special results of 44_floating_point.md R251 and R252, of four operations on patterns of a format: which are
NaNs (none), infinite operands, zero divisors, and the sign as the top bit of a pattern. -/
structure SpecialResults {k : Nat} (φ : FpFormat) (value : BitVec k → FpValue)
    (add sub mul div : BitVec k → BitVec k → Option (BitVec k)) : Prop where
  /-- the sign of a value is its pattern's top bit -/
  sign : ∀ a n, (value a = .inf n → n = a.msb) ∧ ∀ m e, value a = .finite n m e → n = a.msb
  /-- a NaN operand gives a NaN -/
  nan : ∀ a b, value a = .nan ∨ value b = .nan → add a b = none ∧ sub a b = none ∧ mul a b = none ∧ div a b = none
  infInf : ∀ a b n m, value a = .inf n → value b = .inf m →
    add a b = (if n = m then some (BitVec.ofNat k (φ.infBits n)) else none) ∧
    sub a b = (if n = m then none else some (BitVec.ofNat k (φ.infBits n))) ∧
    mul a b = some (BitVec.ofNat k (φ.infBits (n ^^ m))) ∧ div a b = none
  infFinite : ∀ a b n m x e, value a = .inf n → value b = .finite m x e →
    add a b = some (BitVec.ofNat k (φ.infBits n)) ∧ sub a b = some (BitVec.ofNat k (φ.infBits n)) ∧
    mul a b = (if x = 0 then none else some (BitVec.ofNat k (φ.infBits (n ^^ m)))) ∧
    div a b = some (BitVec.ofNat k (φ.infBits (n ^^ m)))
  finiteInf : ∀ a b n m x e, value a = .finite m x e → value b = .inf n →
    add a b = some (BitVec.ofNat k (φ.infBits n)) ∧ sub a b = some (BitVec.ofNat k (φ.infBits !n)) ∧
    mul a b = (if x = 0 then none else some (BitVec.ofNat k (φ.infBits (m ^^ n)))) ∧
    div a b = some (BitVec.ofNat k (φ.signBit (m ^^ n)))
  /-- x / 0 is an infinity and 0 / 0 a NaN -/
  zeroDivisor : ∀ a b n m x e f, value a = .finite n x e → value b = .finite m 0 f →
    div a b = if x = 0 then none else some (BitVec.ofNat k (φ.infBits (n ^^ m)))

end Sys2Proof.Machine
end

