-- ==== Sys2Proof/Certificates/Slice0/Obligations.lean ====
section
/-! DEFINITION. The statements for the provers, each a closed proposition about the model. -/

open Sys2Proof Sys2Proof.Machine Sys2Proof.Config

/-! ### Decoding and encoding -/

/-- The three words the source fixes (30_encoding.md R95, R96, R97) and one word of each other family and format,
spelled bit by bit, decode to the instructions they stand for. -/
def Obligations.sample_words_decode : Prop :=
  decodeWord 0b000000_01010_11111_00011_00000100000#32 = .ok (.add 3 10 31) ∧
  decodeWord 0b100011_00011_00101_0000000000100000#32 = .ok (.lw 5 3 32) ∧
  decodeWord 0b000010_11111111111111111111110100#32 = .ok (.j (BitVec.ofInt 26 (-12))) ∧
  decodeWord 0b101111_00000_00010_0001000000101100#32 = .ok (.sd 0 0x102C 2) ∧
  decodeWord 0b000000_00100_00000_00010_00000110011#32 = .ok (.movd 2 4) ∧
  decodeWord 0b001111_00000_00001_0001001000110100#32 = .ok (.lhi 1 0x1234) ∧
  decodeWord 0b011010_00010_00001_1111111111111111#32 = .ok (.slti 1 2 0xFFFF) ∧
  decodeWord 0b010111_00010_00001_0000000000000100#32 = .ok (.srai 1 2 4) ∧
  decodeWord 0b000111_00000_00000_1111111111100000#32 = .ok (.bfpf 0xFFE0) ∧
  decodeWord 0b010011_00101_00000_0000000000000000#32 = .ok (.jalr 5) ∧
  decodeWord 0b010001_00000000000000000000000101#32 = .ok (.trap 5) ∧
  decodeWord 0b000001_00100_00110_00010_00000000101#32 = .ok (.subd 2 4 6) ∧
  decodeWord 0b000001_00010_00011_00000_00000010010#32 = .ok (.ltf 2 3)

/-- Decoding undoes encoding under every ENC (00_scope.md R12) that encLegal admits; which tables those are is the
model's choice (log 1: formats kept, one number for each mnemonic, upper func bits zero). Any well-formed instruction has four bytes, which,
whatever follows them, decode to it, and the rest is left; under the default ENC the bytes are those of `encode`
(30_encoding.md R104, R107). -/
def Obligations.decode_of_encode : Prop :=
  ∀ (enc : Enc) (i : Instr) (rest : List Byte), encLegal enc = true → i.wellFormed = true →
    (∃ bs, encodeBytesWith enc i = some bs ∧ bs.length = 4 ∧ decodeBytesWith enc (bs ++ rest) = .ok (i, rest)) ∧
    (enc = .standard → encodeBytesWith enc i = some (encodeBytes i) ∧
      decodeBytes (encodeBytes i ++ rest) = .ok (i, rest))

/-- Encoding undoes decoding under every ENC (00_scope.md R12) that encLegal admits; which tables those are, so that a
mnemonic has one number, is the model's choice (log 1). A word that decodes is the one encoding of a
well-formed instruction, so no two instructions share a word and no bit of a word is dropped (30_encoding.md R103,
R104). -/
def Obligations.encode_of_decode : Prop :=
  ∀ (enc : Enc) (w : Word) (i : Instr), encLegal enc = true → decodeWith enc w = .ok i →
    i.wellFormed = true ∧ encodeWith enc i = some w

/-- The decoder is, under the default ENC, the opcode table: a word is a row's instruction exactly when w AND mask =
match, no two rows have one word, and a word of no row decodes to nothing (30_encoding.md R104, opcode_table.json);
and the default ENC written out as a table is one that encLegal, the model's choice (log 1), admits and decodes as it
does (00_scope.md R12). -/
def Obligations.decode_is_the_opcode_table : Prop :=
  (∀ (w : Word) (r : OpcodeRow), r ∈ opcodeRows →
    (w &&& r.mask = r.bits ↔ ∃ i, decodeWord w = .ok i ∧ i.mnemonic = r.mnemonic)) ∧
  (∀ (w : Word) (i : Instr), decodeWord w = .ok i → ∃ r ∈ opcodeRows, i.mnemonic = r.mnemonic) ∧
  opcodeRows.Pairwise (fun r q => ∀ w : Word, ¬(w &&& r.mask = r.bits ∧ w &&& q.mask = q.bits)) ∧
  (encLegal (.table (defaultCodes.map (fun c => ⟨c, c⟩))) = true ∧
    ∀ (w : Word) (i : Instr), decodeWith (.table (defaultCodes.map (fun c => ⟨c, c⟩))) w = .ok i ↔
      decodeWord w = .ok i)

/-! ### One step -/

/-- Where the four bytes at an aligned pc lie in TEXT and decode, under the run's ENC, to an instruction, a step from a running state is
exactly that instruction's execution: step adds nothing around exec (70_reset_and_hazards.md R357). -/
def Obligations.step_runs_the_decoded_instruction : Prop :=
  ∀ (s : State) (bs rest : List Byte) (i : Instr),
    s.status = .running → s.pc.toNat % 4 = 0 → (∀ k < 4, inRegions s.params.text (s.pc.toNat + k) = true) →
    bs.length = 4 → (∀ k < 4, s.readByte (s.pc.toNat + k) = bs[k]?) → decodeBytesWith s.params.enc bs = .ok (i, rest) →
    step s = exec i s

/-- The checks of a fetch in their order: a misaligned pc, whatever else holds; then a byte outside TEXT; then a word
that decodes to no instruction, recorded in the fault (20_memory.md R76, 30_encoding.md R105, 60_exceptions.md
R321). -/
def Obligations.fetch_faults : Prop :=
  ∀ s : State, s.status = .running →
    (s.pc.toNat % 4 ≠ 0 → step s = .fault (.fetchMisaligned s.pc)) ∧
    (s.pc.toNat % 4 = 0 → (∃ k < 4, inRegions s.params.text (s.pc.toNat + k) = false) →
      step s = .fault (.fetchFault s.pc)) ∧
    (∀ b0 b1 b2 b3 : Byte, s.pc.toNat % 4 = 0 → (∀ k < 4, inRegions s.params.text (s.pc.toNat + k) = true) →
      (∀ k < 4, s.readByte (s.pc.toNat + k) = [b0, b1, b2, b3][k]?) →
      (∀ i, decodeWith s.params.enc (b0 ++ b1 ++ b2 ++ b3 : Word) ≠ .ok i) →
      step s = .fault (.illegalInstruction (b0 ++ b1 ++ b2 ++ b3)))

/-- What a step from a running state answers: never a refusal; and the word 0x08000000 (`j` to itself, whose
number every ENC has, 00_scope.md R12; which tables are one, encLegal, is the model's choice, log 1) runs for ever, each step leaving the state as it is (70_reset_and_hazards.md R361). -/
def Obligations.running_states_progress : Prop :=
  (∀ s : State, s.status = .running → (∃ t, step s = .next t) ∨ ∃ f, step s = .fault f) ∧
  ∀ (s : State) (k : Nat), s.status = .running → encLegal s.params.enc = true → s.pc.toNat % 4 = 0 →
    (∀ k < 4, inRegions s.params.text (s.pc.toNat + k) = true) →
    (∀ k < 4, s.readByte (s.pc.toNat + k) = [0x08#8, 0x00#8, 0x00#8, 0x00#8][k]?) →
    Sys2Proof.core.run k s = .next s

/-- A step is taken only from running: neither a final nor a faulted state is ever left (10_state.md R45). That the
model answers with the refusal notRunning there is its own choice (log 13). -/
def Obligations.stopped_states_are_not_left : Prop :=
  ∀ s : State, s.status ≠ .running → step s = .refused .notRunning

/-- An instruction raises only the faults the spec lists for it (60_exceptions.md R338), and exec never refuses. -/
def Obligations.only_listed_faults : Prop :=
  ∀ (i : Instr) (s : State),
    (∀ f, exec i s = .fault f → mayRaise i f) ∧ ∀ r, exec i s ≠ .refused r

/-! ### Reset and the invariant -/

/-- What reset leaves, under any parameters of the run: R0 is zero, the run status is running and pc is ENTRY by the
spec (10_state.md R46, 70_reset_and_hazards.md R350); the parameters stand as given. Under the default parameters pc is
0x100 (00_scope.md R9, R10: the number is PRESUMED, log 5) and the policies are the spec's defaults (R11 to R15). That
no byte of memory has a value and that TEXT is empty, where R46 and R350 have the loaded image, is the model's choice:
State.reset has no program (log 6). -/
def Obligations.reset_values : Prop :=
  (∀ p : Params, (State.resetWith p).gpr 0#5 = 0#32 ∧ (State.resetWith p).status = .running ∧
    (State.resetWith p).pc = p.entry ∧ (State.resetWith p).params = p ∧
    ∀ a, (State.resetWith p).readByte a = unlistedByte p.unwrittenRead a) ∧
  State.reset = State.resetWith Params.default ∧ State.reset.pc = 0x100#32 ∧
  State.reset.params.text = [] ∧ State.reset.params.ovfPolicy = .fault ∧ State.reset.params.unwrittenRead = .fault ∧
  State.reset.params.enc = .standard ∧ State.reset.params.fp = .ieee754 ∧
  State.reset.params.trapHandler = .undefined ∧ ∀ a, State.reset.readByte a = none

/-- The invariant holds at reset. -/
def Obligations.reset_meets_the_invariant : Prop := State.reset.Inv

/-- Every step keeps the invariant, whatever the host's trap function does: memory stays canonical, R0's storage zero,
TEXT inside MEM_MAP and loaded (10_state.md R31, R43; 20_memory.md R76). -/
def Obligations.step_keeps_the_invariant : Prop :=
  ∀ s t : State, s.Inv → step s = .next t → t.Inv

/-! ### Memory -/

/-- MemRead, whole (20_memory.md R63): the checks in order, UNWRITTEN_READ, and the big-endian value. Under
UNWRITTEN_READ = any every byte has a value. That the fault UnwrittenRead records the first byte that has none is the
model's choice (log 3). -/
def Obligations.mem_read : Prop :=
  ∀ (s : State) (addr : Word) (n : Nat), (n = 1 ∨ n = 2 ∨ n = 4 ∨ n = 8) →
    (addr.toNat % n ≠ 0 → s.memRead addr n = .error (.addressMisaligned addr n)) ∧
    (addr.toNat % n = 0 → ¬Mapped s addr n → s.memRead addr n = .error (.accessFault addr n)) ∧
    (addr.toNat % n = 0 → Mapped s addr n → ∀ k < n, s.readByte (addr.toNat + k) = none →
      (∀ j < k, s.readByte (addr.toNat + j) ≠ none) →
      s.memRead addr n = .error (.unwrittenRead (addr + BitVec.ofNat 32 k))) ∧
    (addr.toNat % n = 0 → Mapped s addr n → ∀ bs : List Byte, bs.length = n →
      (∀ k < n, s.readByte (addr.toNat + k) = bs[k]?) → s.memRead addr n = .ok bs) ∧
    (s.params.unwrittenRead = .any → ∀ a, (s.readByte a).isSome = true) ∧
    ∀ bs : List Byte, bs.length = n → ∀ k < n,
      some ((beValue (8 * n) bs).extractLsb' (8 * (n - 1 - k)) 8) = bs[k]?

/-- MemWrite, whole (20_memory.md R64): the checks in order, then the n bytes of v, the most significant at addr, and
no other byte. -/
def Obligations.mem_write : Prop :=
  ∀ (s : State) (addr : Word) (n : Nat) (v : BitVec (8 * n)), (n = 1 ∨ n = 2 ∨ n = 4 ∨ n = 8) →
    (addr.toNat % n ≠ 0 → s.memWrite addr (beBytes n v) = .error (.addressMisaligned addr n)) ∧
    (addr.toNat % n = 0 → ¬Mapped s addr n → s.memWrite addr (beBytes n v) = .error (.accessFault addr n)) ∧
    (addr.toNat % n = 0 → Mapped s addr n → ¬OutsideText s addr n →
      s.memWrite addr (beBytes n v) = .error (.storeToText addr n)) ∧
    (Memory.wf s.params.unwrittenRead s.mem = true → Storable s addr n →
      ∃ t, s.memWrite addr (beBytes n v) = .ok t ∧
        (∀ k < n, t.readByte (addr.toNat + k) = some (v.extractLsb' (8 * (n - 1 - k)) 8)) ∧
        ∀ b, ¬(addr.toNat ≤ b ∧ b < addr.toNat + n) → t.readByte b = s.readByte b)

/-- An access of one width sees the bytes the last store of any width left (20_memory.md R62). After each of the five
stores, each of the seven loads, at any aligned and mapped address, overlapping the store's bytes or not, sees each
stored byte where it lies among them and each other byte as before the store. So, with no condition on the load's
address, R62's own cases: what LB, LBU, LH, LHU and LW read after SW, and what LF reads at the two words of an SD. -/
def Obligations.mixed_widths : Prop :=
  (∀ (i j : Instr) (s t : State) (rs1 b : GReg) (imm16 d : Imm16) (n m : Nat) (bs : List Byte),
    Memory.wf s.params.unwrittenRead s.mem = true → storeAccess i = some (rs1, imm16, n) →
    loadAccess j = some (b, d, m) → exec i s = .next t → bs.length = m →
    (effectiveAddress t b d).toNat % m = 0 → Mapped t (effectiveAddress t b d) m →
    (∀ k < m, bs[k]? =
      if (effectiveAddress s rs1 imm16).toNat ≤ (effectiveAddress t b d).toNat + k ∧
          (effectiveAddress t b d).toNat + k < (effectiveAddress s rs1 imm16).toNat + n then
        (storedBytes s i)[(effectiveAddress t b d).toNat + k - (effectiveAddress s rs1 imm16).toNat]?
      else s.readByte ((effectiveAddress t b d).toNat + k)) →
    ∃ u, exec j t = .next u ∧ LoadResult bs t u j) ∧
  (∀ (s t : State) (rs1 rd q b : GReg) (imm16 d : Imm16), Memory.wf s.params.unwrittenRead s.mem = true →
    exec (.sw rs1 imm16 rd) s = .next t →
    (∀ k < 4, effectiveAddress t b d = effectiveAddress s rs1 imm16 + BitVec.ofNat 32 k →
      (∃ u, exec (.lb q b d) t = .next u ∧
        GprResult q (BitVec.ofInt 32 ((s.gpr rd).extractLsb' (8 * (3 - k)) 8).toInt) t u) ∧
      ∃ u, exec (.lbu q b d) t = .next u ∧
        GprResult q (BitVec.ofNat 32 ((s.gpr rd).extractLsb' (8 * (3 - k)) 8).toNat) t u) ∧
    (∀ k < 2, effectiveAddress t b d = effectiveAddress s rs1 imm16 + BitVec.ofNat 32 (2 * k) →
      (∃ u, exec (.lh q b d) t = .next u ∧
        GprResult q (BitVec.ofInt 32 ((s.gpr rd).extractLsb' (16 * (1 - k)) 16).toInt) t u) ∧
      ∃ u, exec (.lhu q b d) t = .next u ∧
        GprResult q (BitVec.ofNat 32 ((s.gpr rd).extractLsb' (16 * (1 - k)) 16).toNat) t u) ∧
    (effectiveAddress t b d = effectiveAddress s rs1 imm16 →
      ∃ u, exec (.lw q b d) t = .next u ∧ GprResult q (s.gpr rd) t u)) ∧
  ∀ (s t : State) (rs1 b : GReg) (rd : DReg) (q : FReg) (imm16 d : Imm16),
    Memory.wf s.params.unwrittenRead s.mem = true → exec (.sd rs1 imm16 rd) s = .next t →
    (effectiveAddress t b d = effectiveAddress s rs1 imm16 →
      ∃ u, exec (.lf q b d) t = .next u ∧ FprResult q (s.fpr rd) t u) ∧
    (effectiveAddress t b d = effectiveAddress s rs1 imm16 + 4#32 →
      ∃ u, exec (.lf q b d) t = .next u ∧ FprResult q (s.fpr (rd + 1#5)) t u)

/-! ### Loads and stores (40_data_transfer.md) -/

/-- LB, LBU, LH, LHU complete on a loadable address: the byte or halfword, sign- or zero-extended, and nothing else
(R131 to R134). -/
def Obligations.narrow_loads : Prop :=
  ∀ (s : State) (rd rs1 : GReg) (imm16 : Imm16) (b0 b1 : Byte),
    (Loadable s (effectiveAddress s rs1 imm16) [b0] →
      (∃ t, exec (.lb rd rs1 imm16) s = .next t ∧ GprResult rd (BitVec.ofInt 32 b0.toInt) s t) ∧
      ∃ t, exec (.lbu rd rs1 imm16) s = .next t ∧ GprResult rd (BitVec.ofNat 32 b0.toNat) s t) ∧
    (Loadable s (effectiveAddress s rs1 imm16) [b0, b1] →
      (∃ t, exec (.lh rd rs1 imm16) s = .next t ∧
        GprResult rd (BitVec.ofInt 32 (b0 ++ b1 : BitVec 16).toInt) s t) ∧
      ∃ t, exec (.lhu rd rs1 imm16) s = .next t ∧
        GprResult rd (BitVec.ofNat 32 (b0.toNat * 256 + b1.toNat)) s t)

/-- LW, LF and LD complete on a loadable address: the bits go unchanged to the register, or to the pair, the word at
ea to the even register (R135, R136, R137). -/
def Obligations.wide_loads : Prop :=
  ∀ (s : State) (rs1 : GReg) (imm16 : Imm16) (b0 b1 b2 b3 b4 b5 b6 b7 : Byte),
    (Loadable s (effectiveAddress s rs1 imm16) [b0, b1, b2, b3] →
      (∀ rd : GReg, ∃ t, exec (.lw rd rs1 imm16) s = .next t ∧ GprResult rd (b0 ++ b1 ++ b2 ++ b3) s t) ∧
      ∀ rd : FReg, ∃ t, exec (.lf rd rs1 imm16) s = .next t ∧ FprResult rd (b0 ++ b1 ++ b2 ++ b3) s t) ∧
    (Loadable s (effectiveAddress s rs1 imm16) [b0, b1, b2, b3, b4, b5, b6, b7] →
      ∀ rd : DReg, ∃ t, exec (.ld rd rs1 imm16) s = .next t ∧
        t.fpr rd = b0 ++ b1 ++ b2 ++ b3 ∧ t.fpr (rd + 1#5) = b4 ++ b5 ++ b6 ++ b7 ∧ DblFrame rd s t)

/-- Where a load stops, and with what: misaligned before unmapped before unwritten (60_exceptions.md R321, 20_memory.md
R67, R68). That UnwrittenRead records the first byte that has no value is the model's choice (log 3). -/
def Obligations.load_faults : Prop :=
  ∀ (i : Instr) (s : State) (rs1 : GReg) (imm16 : Imm16) (n : Nat), loadAccess i = some (rs1, imm16, n) →
    ((effectiveAddress s rs1 imm16).toNat % n ≠ 0 →
      exec i s = .fault (.addressMisaligned (effectiveAddress s rs1 imm16) n)) ∧
    ((effectiveAddress s rs1 imm16).toNat % n = 0 → ¬Mapped s (effectiveAddress s rs1 imm16) n →
      exec i s = .fault (.accessFault (effectiveAddress s rs1 imm16) n)) ∧
    ((effectiveAddress s rs1 imm16).toNat % n = 0 → Mapped s (effectiveAddress s rs1 imm16) n →
      ∀ k < n, s.readByte ((effectiveAddress s rs1 imm16).toNat + k) = none →
      (∀ j < k, s.readByte ((effectiveAddress s rs1 imm16).toNat + j) ≠ none) →
      exec i s = .fault (.unwrittenRead (effectiveAddress s rs1 imm16 + BitVec.ofNat 32 k)))

/-- SB, SH, SW, SF, SD complete on a storable address, computed as base register plus sign-extended displacement: the
low byte, the low halfword, the word or the pair, most significant byte first; every other byte and all else stay
(R138 to R142). -/
def Obligations.stores : Prop :=
  ∀ (s : State) (rs1 : GReg) (imm16 : Imm16), Memory.wf s.params.unwrittenRead s.mem = true →
    (∀ rd : GReg, Storable s (effectiveAddress s rs1 imm16) 1 → ∃ t, exec (.sb rs1 imm16 rd) s = .next t ∧
      StoreResult (effectiveAddress s rs1 imm16).toNat [(s.gpr rd).extractLsb' 0 8] s t) ∧
    (∀ rd : GReg, Storable s (effectiveAddress s rs1 imm16) 2 → ∃ t, exec (.sh rs1 imm16 rd) s = .next t ∧
      StoreResult (effectiveAddress s rs1 imm16).toNat
        [(s.gpr rd).extractLsb' 8 8, (s.gpr rd).extractLsb' 0 8] s t) ∧
    (∀ rd : GReg, Storable s (effectiveAddress s rs1 imm16) 4 → ∃ t, exec (.sw rs1 imm16 rd) s = .next t ∧
      StoreResult (effectiveAddress s rs1 imm16).toNat
        [(s.gpr rd).extractLsb' 24 8, (s.gpr rd).extractLsb' 16 8, (s.gpr rd).extractLsb' 8 8,
          (s.gpr rd).extractLsb' 0 8] s t) ∧
    (∀ rd : FReg, Storable s (effectiveAddress s rs1 imm16) 4 → ∃ t, exec (.sf rs1 imm16 rd) s = .next t ∧
      StoreResult (effectiveAddress s rs1 imm16).toNat
        [(s.fpr rd).extractLsb' 24 8, (s.fpr rd).extractLsb' 16 8, (s.fpr rd).extractLsb' 8 8,
          (s.fpr rd).extractLsb' 0 8] s t) ∧
    (∀ rd : DReg, Storable s (effectiveAddress s rs1 imm16) 8 → ∃ t, exec (.sd rs1 imm16 rd) s = .next t ∧
      StoreResult (effectiveAddress s rs1 imm16).toNat
        [(s.fpr rd).extractLsb' 24 8, (s.fpr rd).extractLsb' 16 8, (s.fpr rd).extractLsb' 8 8,
          (s.fpr rd).extractLsb' 0 8, (s.fpr (rd + 1#5)).extractLsb' 24 8, (s.fpr (rd + 1#5)).extractLsb' 16 8,
          (s.fpr (rd + 1#5)).extractLsb' 8 8, (s.fpr (rd + 1#5)).extractLsb' 0 8] s t)

/-- Where a store stops, and with what: misaligned before unmapped before TEXT (60_exceptions.md R321, 20_memory.md
R64, R77). -/
def Obligations.store_faults : Prop :=
  ∀ (i : Instr) (s : State) (rs1 : GReg) (imm16 : Imm16) (n : Nat), storeAccess i = some (rs1, imm16, n) →
    ((effectiveAddress s rs1 imm16).toNat % n ≠ 0 →
      exec i s = .fault (.addressMisaligned (effectiveAddress s rs1 imm16) n)) ∧
    ((effectiveAddress s rs1 imm16).toNat % n = 0 → ¬Mapped s (effectiveAddress s rs1 imm16) n →
      exec i s = .fault (.accessFault (effectiveAddress s rs1 imm16) n)) ∧
    ((effectiveAddress s rs1 imm16).toNat % n = 0 → Mapped s (effectiveAddress s rs1 imm16) n →
      ¬OutsideText s (effectiveAddress s rs1 imm16) n →
      exec i s = .fault (.storeToText (effectiveAddress s rs1 imm16) n))

/-- The address of every load and store: the base register plus the displacement read as a signed number of bytes,
modulo 2^32 (40_data_transfer.md R130). -/
def Obligations.effective_addresses : Prop :=
  ∀ (s : State) (rs1 : GReg) (imm16 : Imm16),
    ((effectiveAddress s rs1 imm16).toNat : Int) = ((s.gpr rs1).toNat + imm16.toInt) % 2 ^ 32

/-- MOVI2FP, MOVFP2I, MOVF and MOVD complete always: bit copies, the pair read whole before it is written (R143 to
R146). -/
def Obligations.moves : Prop :=
  ∀ s : State,
    (∀ (rd : FReg) (rs1 : GReg), ∃ t, exec (.movi2fp rd rs1) s = .next t ∧ FprResult rd (s.gpr rs1) s t) ∧
    (∀ (rd : GReg) (rs1 : FReg), ∃ t, exec (.movfp2i rd rs1) s = .next t ∧ GprResult rd (s.fpr rs1) s t) ∧
    (∀ rd rs1 : FReg, ∃ t, exec (.movf rd rs1) s = .next t ∧ FprResult rd (s.fpr rs1) s t) ∧
    ∀ rd rs1 : DReg, ∃ t, exec (.movd rd rs1) s = .next t ∧
      DblResult rd (s.fpr rs1 ++ s.fpr (rs1 + 1#5)) s t

/-- MOVI2S, MOVS2I and RFE each have an encoding, and each raises NotImplemented whenever executed, for every operand
and in every state (60_exceptions.md R324). -/
def Obligations.not_implemented : Prop :=
  ∀ (s : State) (a b : BitVec 5) (off26 : Off26),
    decodeWord (encode (.movi2s a b)) = .ok (.movi2s a b) ∧
    decodeWord (encode (.movs2i a b)) = .ok (.movs2i a b) ∧
    decodeWord (encode (.rfe off26)) = .ok (.rfe off26) ∧
    exec (.movi2s a b) s = .fault (.notImplemented .movi2s) ∧
    exec (.movs2i a b) s = .fault (.notImplemented .movs2i) ∧
    exec (.rfe off26) s = .fault (.notImplemented .rfe)

/-! ### Integer arithmetic (41_arithmetic.md) -/

/-- ADD, ADDI, SUB, SUBI and MULT complete where the exact signed result fits in 32 bits, or OVF_POLICY is wrap, and
write its low 32 bits; nothing else changes (R161, R165, R166, R169, R170, R173). -/
def Obligations.signed_arithmetic : Prop :=
  ∀ (s : State) (rd rs1 rs2 : GReg) (imm16 : Imm16),
    (let i := (s.gpr rs1).toInt + (s.gpr rs2).toInt
     (-2 ^ 31 ≤ i ∧ i ≤ 2 ^ 31 - 1) ∨ s.params.ovfPolicy = .wrap →
      ∃ t, exec (.add rd rs1 rs2) s = .next t ∧ GprResult rd (BitVec.ofInt 32 i) s t) ∧
    (let i := (s.gpr rs1).toInt + imm16.toInt
     (-2 ^ 31 ≤ i ∧ i ≤ 2 ^ 31 - 1) ∨ s.params.ovfPolicy = .wrap →
      ∃ t, exec (.addi rd rs1 imm16) s = .next t ∧ GprResult rd (BitVec.ofInt 32 i) s t) ∧
    (let i := (s.gpr rs1).toInt - (s.gpr rs2).toInt
     (-2 ^ 31 ≤ i ∧ i ≤ 2 ^ 31 - 1) ∨ s.params.ovfPolicy = .wrap →
      ∃ t, exec (.sub rd rs1 rs2) s = .next t ∧ GprResult rd (BitVec.ofInt 32 i) s t) ∧
    (let i := (s.gpr rs1).toInt - imm16.toInt
     (-2 ^ 31 ≤ i ∧ i ≤ 2 ^ 31 - 1) ∨ s.params.ovfPolicy = .wrap →
      ∃ t, exec (.subi rd rs1 imm16) s = .next t ∧ GprResult rd (BitVec.ofInt 32 i) s t) ∧
    (let i := (s.gpr rs1).toInt * (s.gpr rs2).toInt
     (-2 ^ 31 ≤ i ∧ i ≤ 2 ^ 31 - 1) ∨ s.params.ovfPolicy = .wrap →
      ∃ t, exec (.mult rd rs1 rs2) s = .next t ∧ GprResult rd (BitVec.ofInt 32 i) s t)

/-- ADD, ADDI, SUB, SUBI and MULT raise IntegerOverflow, whatever the destination, where the exact signed result does
not fit and OVF_POLICY is fault (R160, R161). -/
def Obligations.signed_overflow : Prop :=
  ∀ (s : State) (rd rs1 rs2 : GReg) (imm16 : Imm16), s.params.ovfPolicy = .fault →
    (let i := (s.gpr rs1).toInt + (s.gpr rs2).toInt
     i < -2 ^ 31 ∨ 2 ^ 31 - 1 < i → exec (.add rd rs1 rs2) s = .fault .integerOverflow) ∧
    (let i := (s.gpr rs1).toInt + imm16.toInt
     i < -2 ^ 31 ∨ 2 ^ 31 - 1 < i → exec (.addi rd rs1 imm16) s = .fault .integerOverflow) ∧
    (let i := (s.gpr rs1).toInt - (s.gpr rs2).toInt
     i < -2 ^ 31 ∨ 2 ^ 31 - 1 < i → exec (.sub rd rs1 rs2) s = .fault .integerOverflow) ∧
    (let i := (s.gpr rs1).toInt - imm16.toInt
     i < -2 ^ 31 ∨ 2 ^ 31 - 1 < i → exec (.subi rd rs1 imm16) s = .fault .integerOverflow) ∧
    (let i := (s.gpr rs1).toInt * (s.gpr rs2).toInt
     i < -2 ^ 31 ∨ 2 ^ 31 - 1 < i → exec (.mult rd rs1 rs2) s = .fault .integerOverflow)

/-- ADDU, ADDUI, SUBU, SUBUI and MULTU always complete and write the low 32 bits of the exact unsigned result, the
immediate zero-extended (R161, R162, R167, R168, R171, R172, R174). -/
def Obligations.unsigned_arithmetic : Prop :=
  ∀ (s : State) (rd rs1 rs2 : GReg) (imm16 : Imm16),
    (∃ t, exec (.addu rd rs1 rs2) s = .next t ∧
      GprResult rd (BitVec.ofInt 32 ((s.gpr rs1).toNat + (s.gpr rs2).toNat)) s t) ∧
    (∃ t, exec (.addui rd rs1 imm16) s = .next t ∧
      GprResult rd (BitVec.ofInt 32 ((s.gpr rs1).toNat + imm16.toNat)) s t) ∧
    (∃ t, exec (.subu rd rs1 rs2) s = .next t ∧
      GprResult rd (BitVec.ofInt 32 ((s.gpr rs1).toNat - (s.gpr rs2).toNat)) s t) ∧
    (∃ t, exec (.subui rd rs1 imm16) s = .next t ∧
      GprResult rd (BitVec.ofInt 32 ((s.gpr rs1).toNat - imm16.toNat)) s t) ∧
    ∃ t, exec (.multu rd rs1 rs2) s = .next t ∧
      GprResult rd (BitVec.ofInt 32 ((s.gpr rs1).toNat * (s.gpr rs2).toNat)) s t

/-- Where ADD, SUB or MULT completes, its unsigned form completes with the same state: no overflow, or wrap, and the
bits are the same (R161, R164). -/
def Obligations.signed_and_unsigned_agree : Prop :=
  ∀ (s t : State) (rd rs1 rs2 : GReg),
    (exec (.add rd rs1 rs2) s = .next t → exec (.addu rd rs1 rs2) s = .next t) ∧
    (exec (.sub rd rs1 rs2) s = .next t → exec (.subu rd rs1 rs2) s = .next t) ∧
    (exec (.mult rd rs1 rs2) s = .next t → exec (.multu rd rs1 rs2) s = .next t)

/-- Division (R163, R175, R176): DIV rounds toward zero, sign(a)*sign(b)*floor(|a|/|b|), through ovf_S; DIVU takes the
floor; a zero divisor raises DivideByZero in both, whatever the policy; only -2^31 / -1 overflows. -/
def Obligations.division : Prop :=
  ∀ (s : State) (rd rs1 rs2 : GReg),
    (s.gpr rs2 = 0#32 → exec (.div rd rs1 rs2) s = .fault .divideByZero ∧
      exec (.divu rd rs1 rs2) s = .fault .divideByZero) ∧
    (s.gpr rs2 ≠ 0#32 →
      (∃ t, exec (.divu rd rs1 rs2) s = .next t ∧
        GprResult rd (BitVec.ofNat 32 ((s.gpr rs1).toNat / (s.gpr rs2).toNat)) s t) ∧
      (¬(s.gpr rs1 = 0x80000000#32 ∧ s.gpr rs2 = 0xFFFFFFFF#32) ∨ s.params.ovfPolicy = .wrap →
        ∃ t, exec (.div rd rs1 rs2) s = .next t ∧
          GprResult rd (BitVec.ofInt 32 ((s.gpr rs1).toInt.sign * (s.gpr rs2).toInt.sign *
            ((s.gpr rs1).toInt.natAbs / (s.gpr rs2).toInt.natAbs : Nat))) s t) ∧
      (s.gpr rs1 = 0x80000000#32 ∧ s.gpr rs2 = 0xFFFFFFFF#32 → s.params.ovfPolicy = .fault →
        exec (.div rd rs1 rs2) s = .fault .integerOverflow))

/-! ### Logic, shifts, sets, NOP (42_logical.md) -/

/-- AND, OR, XOR and their immediate forms (zero-extended) complete always and combine the operands bit by bit; LHI
writes the immediate over 16 zeros (R181 to R187). -/
def Obligations.bitwise_logic : Prop :=
  ∀ (s : State) (rd rs1 rs2 : GReg) (imm16 : Imm16), ∃ va vai vo voi vx vxi vl : Word,
    (∀ k < 32, va.getLsbD k = ((s.gpr rs1).getLsbD k && (s.gpr rs2).getLsbD k) ∧
      vai.getLsbD k = ((s.gpr rs1).getLsbD k && (decide (k < 16) && imm16.getLsbD k)) ∧
      vo.getLsbD k = ((s.gpr rs1).getLsbD k || (s.gpr rs2).getLsbD k) ∧
      voi.getLsbD k = ((s.gpr rs1).getLsbD k || (decide (k < 16) && imm16.getLsbD k)) ∧
      vx.getLsbD k = ((s.gpr rs1).getLsbD k ^^ (s.gpr rs2).getLsbD k) ∧
      vxi.getLsbD k = ((s.gpr rs1).getLsbD k ^^ (decide (k < 16) && imm16.getLsbD k)) ∧
      vl.getLsbD k = (decide (16 ≤ k) && imm16.getLsbD (k - 16))) ∧
    (∃ t, exec (.and rd rs1 rs2) s = .next t ∧ GprResult rd va s t) ∧
    (∃ t, exec (.andi rd rs1 imm16) s = .next t ∧ GprResult rd vai s t) ∧
    (∃ t, exec (.or rd rs1 rs2) s = .next t ∧ GprResult rd vo s t) ∧
    (∃ t, exec (.ori rd rs1 imm16) s = .next t ∧ GprResult rd voi s t) ∧
    (∃ t, exec (.xor rd rs1 rs2) s = .next t ∧ GprResult rd vx s t) ∧
    (∃ t, exec (.xori rd rs1 imm16) s = .next t ∧ GprResult rd vxi s t) ∧
    ∃ t, exec (.lhi rd imm16) s = .next t ∧ GprResult rd vl s t

/-- The six shifts complete always; the amount is taken modulo 32 from the register or the immediate; SLL multiplies
by 2^n and keeps 32 bits, SRL divides the unsigned value, SRA divides the signed value, both rounding down (R188 to
R194). -/
def Obligations.shifts : Prop :=
  ∀ (s : State) (rd rs1 rs2 : GReg) (imm16 : Imm16),
    (∃ t, exec (.sll rd rs1 rs2) s = .next t ∧
      GprResult rd (BitVec.ofNat 32 ((s.gpr rs1).toNat * 2 ^ ((s.gpr rs2).toNat % 32))) s t) ∧
    (∃ t, exec (.srl rd rs1 rs2) s = .next t ∧
      GprResult rd (BitVec.ofNat 32 ((s.gpr rs1).toNat / 2 ^ ((s.gpr rs2).toNat % 32))) s t) ∧
    (∃ t, exec (.sra rd rs1 rs2) s = .next t ∧
      GprResult rd (BitVec.ofInt 32 ((s.gpr rs1).toInt / 2 ^ ((s.gpr rs2).toNat % 32))) s t) ∧
    (∃ t, exec (.slli rd rs1 imm16) s = .next t ∧
      GprResult rd (BitVec.ofNat 32 ((s.gpr rs1).toNat * 2 ^ (imm16.toNat % 32))) s t) ∧
    (∃ t, exec (.srli rd rs1 imm16) s = .next t ∧
      GprResult rd (BitVec.ofNat 32 ((s.gpr rs1).toNat / 2 ^ (imm16.toNat % 32))) s t) ∧
    ∃ t, exec (.srai rd rs1 imm16) s = .next t ∧
      GprResult rd (BitVec.ofInt 32 ((s.gpr rs1).toInt / 2 ^ (imm16.toNat % 32))) s t

/-- The twelve signed set-conditionals complete always and write 1 or 0: signed(a) REL signed(b), b the register or
the sign-extended immediate (R195 to R207). -/
def Obligations.set_conditional_signed : Prop :=
  ∀ (s : State) (rd rs1 rs2 : GReg) (imm16 : Imm16),
    let a := (s.gpr rs1).toInt
    let b := (s.gpr rs2).toInt
    let c := imm16.toInt
    (∃ t, exec (.seq rd rs1 rs2) s = .next t ∧ GprResult rd (if a = b then 1#32 else 0#32) s t) ∧
    (∃ t, exec (.sne rd rs1 rs2) s = .next t ∧ GprResult rd (if a ≠ b then 1#32 else 0#32) s t) ∧
    (∃ t, exec (.slt rd rs1 rs2) s = .next t ∧ GprResult rd (if a < b then 1#32 else 0#32) s t) ∧
    (∃ t, exec (.sgt rd rs1 rs2) s = .next t ∧ GprResult rd (if a > b then 1#32 else 0#32) s t) ∧
    (∃ t, exec (.sle rd rs1 rs2) s = .next t ∧ GprResult rd (if a ≤ b then 1#32 else 0#32) s t) ∧
    (∃ t, exec (.sge rd rs1 rs2) s = .next t ∧ GprResult rd (if a ≥ b then 1#32 else 0#32) s t) ∧
    (∃ t, exec (.seqi rd rs1 imm16) s = .next t ∧ GprResult rd (if a = c then 1#32 else 0#32) s t) ∧
    (∃ t, exec (.snei rd rs1 imm16) s = .next t ∧ GprResult rd (if a ≠ c then 1#32 else 0#32) s t) ∧
    (∃ t, exec (.slti rd rs1 imm16) s = .next t ∧ GprResult rd (if a < c then 1#32 else 0#32) s t) ∧
    (∃ t, exec (.sgti rd rs1 imm16) s = .next t ∧ GprResult rd (if a > c then 1#32 else 0#32) s t) ∧
    (∃ t, exec (.slei rd rs1 imm16) s = .next t ∧ GprResult rd (if a ≤ c then 1#32 else 0#32) s t) ∧
    ∃ t, exec (.sgei rd rs1 imm16) s = .next t ∧ GprResult rd (if a ≥ c then 1#32 else 0#32) s t

/-- The twelve unsigned set-conditionals complete always and write 1 or 0: unsigned(a) REL unsigned(b), b the register
or the zero-extended immediate (R195, R208 to R219). -/
def Obligations.set_conditional_unsigned : Prop :=
  ∀ (s : State) (rd rs1 rs2 : GReg) (imm16 : Imm16),
    let a := (s.gpr rs1).toNat
    let b := (s.gpr rs2).toNat
    let c := imm16.toNat
    (∃ t, exec (.sequ rd rs1 rs2) s = .next t ∧ GprResult rd (if a = b then 1#32 else 0#32) s t) ∧
    (∃ t, exec (.sneu rd rs1 rs2) s = .next t ∧ GprResult rd (if a ≠ b then 1#32 else 0#32) s t) ∧
    (∃ t, exec (.sltu rd rs1 rs2) s = .next t ∧ GprResult rd (if a < b then 1#32 else 0#32) s t) ∧
    (∃ t, exec (.sgtu rd rs1 rs2) s = .next t ∧ GprResult rd (if a > b then 1#32 else 0#32) s t) ∧
    (∃ t, exec (.sleu rd rs1 rs2) s = .next t ∧ GprResult rd (if a ≤ b then 1#32 else 0#32) s t) ∧
    (∃ t, exec (.sgeu rd rs1 rs2) s = .next t ∧ GprResult rd (if a ≥ b then 1#32 else 0#32) s t) ∧
    (∃ t, exec (.sequi rd rs1 imm16) s = .next t ∧ GprResult rd (if a = c then 1#32 else 0#32) s t) ∧
    (∃ t, exec (.sneui rd rs1 imm16) s = .next t ∧ GprResult rd (if a ≠ c then 1#32 else 0#32) s t) ∧
    (∃ t, exec (.sltui rd rs1 imm16) s = .next t ∧ GprResult rd (if a < c then 1#32 else 0#32) s t) ∧
    (∃ t, exec (.sgtui rd rs1 imm16) s = .next t ∧ GprResult rd (if a > c then 1#32 else 0#32) s t) ∧
    (∃ t, exec (.sleui rd rs1 imm16) s = .next t ∧ GprResult rd (if a ≤ c then 1#32 else 0#32) s t) ∧
    ∃ t, exec (.sgeui rd rs1 imm16) s = .next t ∧ GprResult rd (if a ≥ c then 1#32 else 0#32) s t

/-! ### Control (43_control.md) and NOP -/

/-- NOP advances the pc and changes nothing else (42_logical.md R222). BEQZ, BNEZ, BFPT and BFPF complete always: taken,
the pc is the instruction's own address plus the signed byte offset; not taken, pc + 4; nothing else changes (R230,
R231, R235 to R238). -/
def Obligations.branches_and_nop : Prop :=
  ∀ (s : State) (rs1 : GReg) (imm16 : Imm16),
    let target : Word := BitVec.ofInt 32 (s.pc.toNat + imm16.toInt)
    let next : Word := BitVec.ofInt 32 (s.pc.toNat + 4)
    (∃ t, exec .nop s = .next t ∧ JumpResult next s t) ∧
    (∃ t, exec (.beqz rs1 imm16) s = .next t ∧ JumpResult (if s.gpr rs1 = 0#32 then target else next) s t) ∧
    (∃ t, exec (.bnez rs1 imm16) s = .next t ∧ JumpResult (if s.gpr rs1 = 0#32 then next else target) s t) ∧
    (∃ t, exec (.bfpt imm16) s = .next t ∧ JumpResult (if s.fpsrC = true then target else next) s t) ∧
    ∃ t, exec (.bfpf imm16) s = .next t ∧ JumpResult (if s.fpsrC = true then next else target) s t

/-- J, JR, JAL and JALR complete always, also with a target that is misaligned or outside TEXT (R232): the pc is the
own address plus the signed 26-bit byte offset, or the register read before R31 is written; JAL and JALR leave pc + 4
in R31; nothing else changes (R230, R239 to R242). -/
def Obligations.jumps_and_links : Prop :=
  ∀ (s : State) (rs1 : GReg) (off26 : Off26),
    (∃ t, exec (.j off26) s = .next t ∧ JumpResult (BitVec.ofInt 32 (s.pc.toNat + off26.toInt)) s t) ∧
    (∃ t, exec (.jr rs1) s = .next t ∧ JumpResult (s.gpr rs1) s t) ∧
    (∃ t, exec (.jal off26) s = .next t ∧ LinkResult (BitVec.ofInt 32 (s.pc.toNat + off26.toInt)) s t) ∧
    ∃ t, exec (.jalr rs1) s = .next t ∧ LinkResult (s.gpr rs1) s t

/-- TRAP 0 ends the run: status becomes final and nothing else changes, pc included (60_exceptions.md R326). -/
def Obligations.trap_zero_ends_the_run : Prop :=
  ∀ s : State, ∃ t, exec (.trap 0#26) s = .next t ∧ t.status = .final ∧ t.pc = s.pc ∧ SameGprs s t ∧ SameFprs s t ∧
    t.fpsrC = s.fpsrC ∧ SameMemory s t ∧ t.params = s.params ∧ t.draws = s.draws

/-- TRAP n, n not 0 (60_exceptions.md R327): UnhandledTrap(n) where the host gives no handler; else what the host's
function makes of the state whose pc stands after the TRAP. That it answers a list of changes, made in order, and that
the draw counter then advances is the model's choice (log 11, log 12). -/
def Obligations.other_traps : Prop :=
  ∀ (s : State) (off26 : Off26), off26 ≠ 0#26 →
    (s.params.trapHandler = .undefined → exec (.trap off26) s = .fault (.unhandledTrap off26.toNat)) ∧
    (s.params.trapHandler = .host →
      exec (.trap off26) s =
        match trapHandler off26.toNat { s with pc := s.pc + 4#32 } with
        | none => .fault (.unhandledTrap off26.toNat)
        | some changes => .next ((State.applyHostAll { s with pc := s.pc + 4#32 } changes).nextDraw))

/-! ### Floating point (44_floating_point.md) -/

/-- ADDF, SUBF, MULTF, DIVF complete on every operand: the destination gets the value that the run's FP (00_scope.md
R13), by default IEEE 754, has of the two sources, or where that is a NaN some NaN (R252); nothing else changes (R253, R255, R257, R259, R261, R263). -/
def Obligations.single_arithmetic : Prop :=
  ∀ (s : State) (rd rs1 rs2 : FReg),
    (s.params.fp = .ieee754 → s.numerics.faddS = faddS ∧ s.numerics.fsubS = fsubS ∧ s.numerics.fmulS = fmulS ∧
      s.numerics.fdivS = fdivS) ∧
    (∃ t, exec (.addf rd rs1 rs2) s = .next t ∧ FprFrame rd s t ∧
      match s.numerics.faddS (s.fpr rs1) (s.fpr rs2) with | some v => t.fpr rd = v | none => valueS (t.fpr rd) = .nan) ∧
    (∃ t, exec (.subf rd rs1 rs2) s = .next t ∧ FprFrame rd s t ∧
      match s.numerics.fsubS (s.fpr rs1) (s.fpr rs2) with | some v => t.fpr rd = v | none => valueS (t.fpr rd) = .nan) ∧
    (∃ t, exec (.multf rd rs1 rs2) s = .next t ∧ FprFrame rd s t ∧
      match s.numerics.fmulS (s.fpr rs1) (s.fpr rs2) with | some v => t.fpr rd = v | none => valueS (t.fpr rd) = .nan) ∧
    ∃ t, exec (.divf rd rs1 rs2) s = .next t ∧ FprFrame rd s t ∧
      match s.numerics.fdivS (s.fpr rs1) (s.fpr rs2) with | some v => t.fpr rd = v | none => valueS (t.fpr rd) = .nan

/-- ADDD, SUBD, MULTD, DIVD complete on every operand: the destination pair gets the value that the run's FP
(00_scope.md R13), by default IEEE 754, has of the two source pairs, even register the high word, or where that is a NaN some NaN; nothing else changes (R252, R253, R255, R256, R258,
R260, R262). -/
def Obligations.double_arithmetic : Prop :=
  ∀ (s : State) (rd rs1 rs2 : DReg),
    let a : DWord := s.fpr rs1 ++ s.fpr (rs1 + 1#5)
    let b : DWord := s.fpr rs2 ++ s.fpr (rs2 + 1#5)
    (s.params.fp = .ieee754 → s.numerics.faddD = faddD ∧ s.numerics.fsubD = fsubD ∧ s.numerics.fmulD = fmulD ∧
      s.numerics.fdivD = fdivD) ∧
    (∃ t, exec (.addd rd rs1 rs2) s = .next t ∧ DblFrame rd s t ∧
      match s.numerics.faddD a b with
      | some v => t.fpr rd ++ t.fpr (rd + 1#5) = v
      | none => valueD (t.fpr rd ++ t.fpr (rd + 1#5)) = .nan) ∧
    (∃ t, exec (.subd rd rs1 rs2) s = .next t ∧ DblFrame rd s t ∧
      match s.numerics.fsubD a b with
      | some v => t.fpr rd ++ t.fpr (rd + 1#5) = v
      | none => valueD (t.fpr rd ++ t.fpr (rd + 1#5)) = .nan) ∧
    (∃ t, exec (.multd rd rs1 rs2) s = .next t ∧ DblFrame rd s t ∧
      match s.numerics.fmulD a b with
      | some v => t.fpr rd ++ t.fpr (rd + 1#5) = v
      | none => valueD (t.fpr rd ++ t.fpr (rd + 1#5)) = .nan) ∧
    ∃ t, exec (.divd rd rs1 rs2) s = .next t ∧ DblFrame rd s t ∧
      match s.numerics.fdivD a b with
      | some v => t.fpr rd ++ t.fpr (rd + 1#5) = v
      | none => valueD (t.fpr rd ++ t.fpr (rd + 1#5)) = .nan

/-- The six conversions complete on every operand. Under the run's FP (00_scope.md R13), by default
IEEE 754, CVTF2D and CVTD2F give FP's value or some NaN; CVTI2F and CVTI2D
FP's value of the source read as an integer; CVTF2I and CVTD2I the truncated integer where it fits and nothing is
said of the value where it does not; nothing but the destination changes (R254, R264 to R269). -/
def Obligations.conversions : Prop :=
  ∀ (s : State) (rd rs1 : BitVec 5),
    (s.params.fp = .ieee754 → s.numerics.cvtS2D = cvtS2D ∧ s.numerics.cvtD2S = cvtD2S ∧ s.numerics.cvtS2I = cvtS2I ∧
      s.numerics.cvtD2I = cvtD2I ∧ s.numerics.cvtI2S = cvtI2S ∧ s.numerics.cvtI2D = cvtI2D) ∧
    (∃ t, exec (.cvtf2d rd rs1) s = .next t ∧ DblFrame rd s t ∧
      match s.numerics.cvtS2D (s.fpr rs1) with
      | some v => t.fpr rd ++ t.fpr (rd + 1#5) = v
      | none => valueD (t.fpr rd ++ t.fpr (rd + 1#5)) = .nan) ∧
    (∃ t, exec (.cvtd2f rd rs1) s = .next t ∧ FprFrame rd s t ∧
      match s.numerics.cvtD2S (s.fpr rs1 ++ s.fpr (rs1 + 1#5)) with
      | some v => t.fpr rd = v
      | none => valueS (t.fpr rd) = .nan) ∧
    (∃ t, exec (.cvtf2i rd rs1) s = .next t ∧ FprFrame rd s t ∧
      ∀ v, s.numerics.cvtS2I (s.fpr rs1) = some v → t.fpr rd = v) ∧
    (∃ t, exec (.cvtd2i rd rs1) s = .next t ∧ FprFrame rd s t ∧
      ∀ v, s.numerics.cvtD2I (s.fpr rs1 ++ s.fpr (rs1 + 1#5)) = some v → t.fpr rd = v) ∧
    (∃ t, exec (.cvti2f rd rs1) s = .next t ∧ FprResult rd (s.numerics.cvtI2S (s.fpr rs1)) s t) ∧
    ∃ t, exec (.cvti2d rd rs1) s = .next t ∧ DblResult rd (s.numerics.cvtI2D (s.fpr rs1)) s t

/-- The twelve compares complete on every operand and write fpsr.c alone, with what the run's FP (00_scope.md R13), by
default IEEE 754, has of the operands, the left one first (R254, R270 to R281). -/
def Obligations.compares : Prop :=
  ∀ (s : State) (rs1 rs2 : BitVec 5),
    let a : DWord := s.fpr rs1 ++ s.fpr (rs1 + 1#5)
    let b : DWord := s.fpr rs2 ++ s.fpr (rs2 + 1#5)
    (s.params.fp = .ieee754 → s.numerics.fcmpD = fcmpD ∧ s.numerics.fcmpS = fcmpS) ∧
    (∃ t, exec (.eqd rs1 rs2) s = .next t ∧ CompareResult (s.numerics.fcmpD .eq a b) s t) ∧
    (∃ t, exec (.ned rs1 rs2) s = .next t ∧ CompareResult (s.numerics.fcmpD .ne a b) s t) ∧
    (∃ t, exec (.ltd rs1 rs2) s = .next t ∧ CompareResult (s.numerics.fcmpD .lt a b) s t) ∧
    (∃ t, exec (.gtd rs1 rs2) s = .next t ∧ CompareResult (s.numerics.fcmpD .gt a b) s t) ∧
    (∃ t, exec (.led rs1 rs2) s = .next t ∧ CompareResult (s.numerics.fcmpD .le a b) s t) ∧
    (∃ t, exec (.ged rs1 rs2) s = .next t ∧ CompareResult (s.numerics.fcmpD .ge a b) s t) ∧
    (∃ t, exec (.eqf rs1 rs2) s = .next t ∧ CompareResult (s.numerics.fcmpS .eq (s.fpr rs1) (s.fpr rs2)) s t) ∧
    (∃ t, exec (.nef rs1 rs2) s = .next t ∧ CompareResult (s.numerics.fcmpS .ne (s.fpr rs1) (s.fpr rs2)) s t) ∧
    (∃ t, exec (.ltf rs1 rs2) s = .next t ∧ CompareResult (s.numerics.fcmpS .lt (s.fpr rs1) (s.fpr rs2)) s t) ∧
    (∃ t, exec (.gtf rs1 rs2) s = .next t ∧ CompareResult (s.numerics.fcmpS .gt (s.fpr rs1) (s.fpr rs2)) s t) ∧
    (∃ t, exec (.lef rs1 rs2) s = .next t ∧ CompareResult (s.numerics.fcmpS .le (s.fpr rs1) (s.fpr rs2)) s t) ∧
    ∃ t, exec (.gef rs1 rs2) s = .next t ∧ CompareResult (s.numerics.fcmpS .ge (s.fpr rs1) (s.fpr rs2)) s t

/-- What the default FP's compares answer on every two patterns, left operand first (R254): with a NaN only NE holds;
otherwise the relation of the values on the extended line, so -0 equals +0; and the same of the values themselves. -/
def Obligations.compare_semantics : Prop :=
  (∀ (r : Rel) (a b : Word), ComparesAs r (valueS a) (valueS b) (fcmpS r a b)) ∧
  (∀ (r : Rel) (a b : DWord), ComparesAs r (valueD a) (valueD b) (fcmpD r a b)) ∧
  (∀ (r : Rel) (v : FpValue), relOrdering r (FpValue.compare .nan v) = decide (r = .ne) ∧
    relOrdering r (FpValue.compare v .nan) = decide (r = .ne)) ∧
  (∀ v w : FpValue, v.isFinite = true → w.isFinite = true →
    (relOrdering .eq (v.compare w) = decide (v.toRat = w.toRat)) ∧
    (relOrdering .ne (v.compare w) = decide (v.toRat ≠ w.toRat)) ∧
    (relOrdering .lt (v.compare w) = decide (v.toRat < w.toRat)) ∧
    (relOrdering .gt (v.compare w) = decide (v.toRat > w.toRat)) ∧
    (relOrdering .le (v.compare w) = decide (v.toRat ≤ w.toRat)) ∧
    (relOrdering .ge (v.compare w) = decide (v.toRat ≥ w.toRat))) ∧
  (∀ (r : Rel) (v : FpValue), v.isFinite = true →
    relOrdering r (FpValue.compare (.inf true) v) = relHolds r 0 1 ∧
    relOrdering r (FpValue.compare v (.inf true)) = relHolds r 1 0 ∧
    relOrdering r (FpValue.compare (.inf false) v) = relHolds r 1 0 ∧
    relOrdering r (FpValue.compare v (.inf false)) = relHolds r 0 1) ∧
  ∀ r : Rel, relOrdering r (FpValue.compare (.inf true) (.inf false)) = relHolds r 0 1 ∧
    relOrdering r (FpValue.compare (.inf false) (.inf true)) = relHolds r 1 0 ∧
    ∀ n, relOrdering r (FpValue.compare (.inf n) (.inf n)) = relHolds r 0 0

/-- The rounding both formats share is round-to-nearest, ties-to-even, with subnormals and overflow to infinity
(R250, R251). -/
def Obligations.rounding_is_nearest_even : Prop :=
  ∀ φ : FpFormat, (φ = binary32 ∨ φ = binary64) → ∀ (neg : Bool) (num den : Nat) (exp : Int), 0 < num → 0 < den →
    φ.RoundsTo ((if neg then -1 else 1) * ((num : ℚ) / den) * (2 : ℚ) ^ exp) (φ.round neg num den exp)

/-- Addition, subtraction, multiplication and division of finite operands, but for a zero divisor, are correctly rounded
in both formats, and their zeros have the right sign: a zero sum is -0 only where both operands are zeros with the sign
set (a difference likewise, the second sign turned), a product or quotient has the exclusive-or of the signs, zeros
included (R251, R260). -/
def Obligations.arithmetic_is_correctly_rounded : Prop :=
  (∀ a b : Word, (valueS a).isFinite = true → (valueS b).isFinite = true →
    (∃ v, faddS a b = some v ∧ binary32.RoundsTo ((valueS a).toRat + (valueS b).toRat) v.toNat ∧
      ((valueS a).toRat + (valueS b).toRat = 0 → v.toNat = binary32.signBit (a.msb && b.msb))) ∧
    (∃ v, fsubS a b = some v ∧ binary32.RoundsTo ((valueS a).toRat - (valueS b).toRat) v.toNat ∧
      ((valueS a).toRat - (valueS b).toRat = 0 → v.toNat = binary32.signBit (a.msb && !b.msb))) ∧
    (∃ v, fmulS a b = some v ∧ binary32.RoundsTo ((valueS a).toRat * (valueS b).toRat) v.toNat ∧
      v.msb = (a.msb ^^ b.msb)) ∧
    ((valueS b).toRat ≠ 0 →
      ∃ v, fdivS a b = some v ∧ binary32.RoundsTo ((valueS a).toRat / (valueS b).toRat) v.toNat ∧
        v.msb = (a.msb ^^ b.msb))) ∧
  (∀ a b : DWord, (valueD a).isFinite = true → (valueD b).isFinite = true →
    (∃ v, faddD a b = some v ∧ binary64.RoundsTo ((valueD a).toRat + (valueD b).toRat) v.toNat ∧
      ((valueD a).toRat + (valueD b).toRat = 0 → v.toNat = binary64.signBit (a.msb && b.msb))) ∧
    (∃ v, fsubD a b = some v ∧ binary64.RoundsTo ((valueD a).toRat - (valueD b).toRat) v.toNat ∧
      ((valueD a).toRat - (valueD b).toRat = 0 → v.toNat = binary64.signBit (a.msb && !b.msb))) ∧
    (∃ v, fmulD a b = some v ∧ binary64.RoundsTo ((valueD a).toRat * (valueD b).toRat) v.toNat ∧
      v.msb = (a.msb ^^ b.msb)) ∧
    ((valueD b).toRat ≠ 0 →
      ∃ v, fdivD a b = some v ∧ binary64.RoundsTo ((valueD a).toRat / (valueD b).toRat) v.toNat ∧
        v.msb = (a.msb ^^ b.msb)))

/-- The special results of R251, of the default FP's eight arithmetic functions on patterns and of the operations on
values behind them: which are NaNs; infinite operands of every operation; x / 0 (R258, R260, R262). Of the operations
on values also the sign of an exact zero sum or difference, of two zeros too, of a zero product and of 0 / x, which
arithmetic_is_correctly_rounded has of the patterns. -/
def Obligations.special_operands : Prop :=
  SpecialResults binary32 valueS faddS fsubS fmulS fdivS ∧ SpecialResults binary64 valueD faddD fsubD fmulD fdivD ∧
  ∀ φ : FpFormat, (φ = binary32 ∨ φ = binary64) →
    (∀ v, φ.add .nan v = none ∧ φ.add v .nan = none ∧ φ.sub .nan v = none ∧ φ.sub v .nan = none ∧
      φ.mul .nan v = none ∧ φ.mul v .nan = none ∧ φ.div .nan v = none ∧ φ.div v .nan = none) ∧
    (∀ n : Bool, φ.add (.inf n) (.inf !n) = none ∧ φ.sub (.inf n) (.inf n) = none ∧
      φ.add (.inf n) (.inf n) = some (φ.infBits n) ∧ φ.sub (.inf n) (.inf !n) = some (φ.infBits n)) ∧
    (∀ n m : Bool, φ.div (.inf n) (.inf m) = none ∧ φ.mul (.inf n) (.inf m) = some (φ.infBits (n ^^ m))) ∧
    (∀ (n m : Bool) (e f : Int), φ.mul (.inf n) (.finite m 0 e) = none ∧ φ.mul (.finite m 0 e) (.inf n) = none ∧
      φ.div (.finite n 0 e) (.finite m 0 f) = none) ∧
    (∀ (n m : Bool) (k : Nat) (e f : Int), k ≠ 0 →
      φ.div (.finite n k e) (.finite m 0 f) = some (φ.infBits (n ^^ m)) ∧
      φ.div (.finite n 0 f) (.finite m k e) = some (φ.signBit (n ^^ m)) ∧
      φ.mul (.inf n) (.finite m k e) = some (φ.infBits (n ^^ m)) ∧
      φ.mul (.finite m k e) (.inf n) = some (φ.infBits (m ^^ n))) ∧
    (∀ (n m : Bool) (k : Nat) (e f : Int),
      φ.mul (.finite n 0 e) (.finite m k f) = some (φ.signBit (n ^^ m)) ∧
      φ.mul (.finite m k f) (.finite n 0 e) = some (φ.signBit (m ^^ n))) ∧
    (∀ (n m : Bool) (k : Nat) (e : Int),
      φ.add (.inf n) (.finite m k e) = some (φ.infBits n) ∧ φ.add (.finite m k e) (.inf n) = some (φ.infBits n) ∧
      φ.sub (.inf n) (.finite m k e) = some (φ.infBits n) ∧ φ.sub (.finite m k e) (.inf n) = some (φ.infBits !n) ∧
      φ.div (.finite m k e) (.inf n) = some (φ.signBit (m ^^ n)) ∧
      φ.div (.inf n) (.finite m k e) = some (φ.infBits (n ^^ m))) ∧
    ∀ (n m : Bool) (k l : Nat) (e f : Int),
      ((FpValue.finite n k e).toRat + (FpValue.finite m l f).toRat = 0 →
        φ.add (.finite n k e) (.finite m l f) = some (φ.signBit (n && m))) ∧
      ((FpValue.finite n k e).toRat - (FpValue.finite m l f).toRat = 0 →
        φ.sub (.finite n k e) (.finite m l f) = some (φ.signBit (n && !m)))

/-- Addition and multiplication do not depend on the order of the operands (R251). -/
def Obligations.addition_and_multiplication_commute : Prop :=
  (∀ a b : Word, faddS a b = faddS b a ∧ fmulS a b = fmulS b a) ∧
  ∀ a b : DWord, faddD a b = faddD b a ∧ fmulD a b = fmulD b a

/-- CVTF2D is exact and CVTD2F undoes it: every single-precision pattern that is no NaN comes back (R254, R264,
R265). -/
def Obligations.single_to_double_is_exact : Prop :=
  ∀ a : Word, valueS a ≠ .nan →
    ∃ v, cvtS2D a = some v ∧ (valueD v).toRat = (valueS a).toRat ∧ (valueD v).isFinite = (valueS a).isFinite ∧
      cvtD2S v = some a

/-- CVTI2D is exact and CVTD2I undoes it: every 32-bit integer comes back (R254, R268). -/
def Obligations.integer_to_double_is_exact : Prop :=
  ∀ a : Word, (valueD (cvtI2D a)).toRat = a.toInt ∧ cvtD2I (cvtI2D a) = some a

/-- The default FP's conversions to an integer round toward zero, on every pattern of both formats: the answer is the
truncated value exactly where that lies in -2^31 .. 2^31-1, and there is none for a NaN, an infinity or a value outside
(R254, R266, R268). -/
def Obligations.conversion_to_integer_truncates : Prop :=
  (∀ v : FpValue, TruncatesTo v v.toInt32) ∧ (∀ a : Word, TruncatesTo (valueS a) (cvtS2I a)) ∧
  ∀ a : DWord, TruncatesTo (valueD a) (cvtD2I a)

/-- The conversions to single precision round to nearest-even: CVTI2F the integer, 0 to +0; CVTD2F every finite double,
through subnormals to a zero of its sign and past the largest single to an infinity of its sign; an infinity goes to
the infinity of its sign, a zero keeps its sign, a NaN has no value and becomes a draw (R252, R254, R265, R267). -/
def Obligations.conversions_to_single_are_rounded : Prop :=
  (∀ a : Word, (a.toInt = 0 → cvtI2S a = 0#32) ∧ binary32.RoundsTo (a.toInt : ℚ) (cvtI2S a).toNat) ∧
  ∀ a : DWord,
    ((valueD a).isFinite = true → ∃ v, cvtD2S a = some v ∧ binary32.RoundsTo (valueD a).toRat v.toNat ∧
      v.msb = a.msb ∧ ((valueD a).toRat = 0 → v.toNat = binary32.signBit a.msb)) ∧
    (∀ n, valueD a = .inf n → ∃ v, cvtD2S a = some v ∧ v.toNat = binary32.infBits n ∧ n = a.msb) ∧
    (valueD a = .nan → cvtD2S a = none)

/-- The draws of R252 are the NaN patterns, all of them and nothing else, in both formats. -/
def Obligations.nan_draws : Prop :=
  (∀ raw : Word, valueS (nanPatternS raw) = .nan) ∧ (∀ v : Word, valueS v = .nan → nanPatternS v = v) ∧
  (∀ raw : DWord, valueD (nanPatternD raw) = .nan) ∧ ∀ v : DWord, valueD v = .nan → nanPatternD v = v

/-! ### The whole machine -/

/-- Only the twelve compares write fpsr.c (10_state.md R42); a host's trap function may. -/
def Obligations.only_compares_write_fpsr : Prop :=
  ∀ (i : Instr) (s t : State), exec i s = .next t → isCompare i = false →
    isTrap i = false ∨ s.params.trapHandler = .undefined → t.fpsrC = s.fpsrC

/-- Only the five stores change memory, and each only the bytes of its own access (40_data_transfer.md R130, 20_memory.md
R64, R65); a host's trap function may change any. -/
def Obligations.only_stores_change_memory : Prop :=
  ∀ (i : Instr) (s t : State), exec i s = .next t → isTrap i = false ∨ s.params.trapHandler = .undefined →
    (storeAccess i = none → SameMemory s t) ∧
    ∀ rs1 imm16 n, storeAccess i = some (rs1, imm16, n) → Memory.wf s.params.unwrittenRead s.mem = true →
      ∀ a, ¬((effectiveAddress s rs1 imm16).toNat ≤ a ∧ a < (effectiveAddress s rs1 imm16).toNat + n) →
        t.readByte a = s.readByte a

/-- No instruction writes a general or floating-point register but its destination (10_state.md R32, R39; R31 for JAL
and JALR); a host's trap function may. -/
def Obligations.only_destinations_change : Prop :=
  ∀ (i : Instr) (s t : State), exec i s = .next t → isTrap i = false ∨ s.params.trapHandler = .undefined →
    (∀ q, gprDest i ≠ some q → t.gpr q = s.gpr q) ∧ ∀ q, q ∉ fprDests i → t.fpr q = s.fpr q

/-- The program text is immutable (20_memory.md R77): no step changes a byte of TEXT, so a fetch always sees the loaded
image; a host's trap function, were there one, might. -/
def Obligations.text_is_immutable : Prop :=
  ∀ s t : State, s.Inv → s.params.trapHandler = .undefined → step s = .next t →
    t.params.text = s.params.text ∧ ∀ a, inRegions s.params.text a = true → t.readByte a = s.readByte a

/-- No step changes a parameter of the run, whatever the host's trap function does (10_state.md R44). -/
def Obligations.parameters_never_change : Prop := ∀ s t : State, step s = .next t → t.params = s.params

/-- A run reaches a final state only by TRAP 0 (60_exceptions.md R326), and a fault is never a next state: where the
host gives no handler, a step's next state is running, or final by a TRAP 0 at pc. -/
def Obligations.only_trap_zero_ends_a_run : Prop :=
  ∀ s t : State, s.params.trapHandler = .undefined → step s = .next t →
    t.status = .running ∨ (t.status = .final ∧ s.fetchInstr = .ok (.trap 0#26))

/-- An instruction that is no load, store or TRAP neither reads nor writes memory: with any other memory it does the
same (10_state.md R32, R39, 42_logical.md R180). -/
def Obligations.memory_does_not_matter : Prop :=
  ∀ (i : Instr) (s : State) (m : Memory), loadAccess i = none → storeAccess i = none → isTrap i = false →
    (∀ t, exec i s = .next t → exec i { s with mem := m } = .next { t with mem := m }) ∧
    ∀ f, exec i s = .fault f → exec i { s with mem := m } = .fault f

/-- A write to R0 is discarded and the rest of the instruction happens (10_state.md R31). An instruction whose
destination is R0, where it answers a next state, leaves every register, fpsr.c, memory and the rest as they were and
the pc at pc + 4. It faults exactly where it would with any other destination: the instructions named are those with a
general register as destination that can fault (60_exceptions.md R338). -/
def Obligations.writes_to_r_zero : Prop :=
  (∀ (s t : State) (i : Instr), exec i s = .next t → gprDest i = some 0#5 → JumpResult (s.pc + 4#32) s t) ∧
  ∀ (s : State) (f : Fault) (rd a b : GReg) (d : Imm16),
    (exec (.add 0#5 a b) s = .fault f ↔ exec (.add rd a b) s = .fault f) ∧
    (exec (.sub 0#5 a b) s = .fault f ↔ exec (.sub rd a b) s = .fault f) ∧
    (exec (.mult 0#5 a b) s = .fault f ↔ exec (.mult rd a b) s = .fault f) ∧
    (exec (.div 0#5 a b) s = .fault f ↔ exec (.div rd a b) s = .fault f) ∧
    (exec (.divu 0#5 a b) s = .fault f ↔ exec (.divu rd a b) s = .fault f) ∧
    (exec (.addi 0#5 a d) s = .fault f ↔ exec (.addi rd a d) s = .fault f) ∧
    (exec (.subi 0#5 a d) s = .fault f ↔ exec (.subi rd a d) s = .fault f) ∧
    (exec (.lb 0#5 a d) s = .fault f ↔ exec (.lb rd a d) s = .fault f) ∧
    (exec (.lbu 0#5 a d) s = .fault f ↔ exec (.lbu rd a d) s = .fault f) ∧
    (exec (.lh 0#5 a d) s = .fault f ↔ exec (.lh rd a d) s = .fault f) ∧
    (exec (.lhu 0#5 a d) s = .fault f ↔ exec (.lhu rd a d) s = .fault f) ∧
    (exec (.lw 0#5 a d) s = .fault f ↔ exec (.lw rd a d) s = .fault f) ∧
    (exec (.movs2i 0#5 a) s = .fault f ↔ exec (.movs2i rd a) s = .fault f)

/-- Loading an image that fits a state of the invariant keeps the invariant and gives every byte of the image, with
the instructions' addresses part of TEXT (10_state.md R46, 45_assembler.md R290). That a byte outside MEM_MAP refuses
the load is the model's choice (log 16). -/
def Obligations.loading_an_assembled_image : Prop :=
  ∀ (p : AsmParams) (ls : List AsmLine) (img : AsmImage) (s : State), assembleLines p ls = .ok img → s.Inv →
    (img.fits s = true → ∃ t, s.load img = some t ∧ t.Inv ∧ t.pc = s.pc ∧
      (∀ c ∈ img.bytes, t.readByte c.1 = some c.2) ∧
      ∀ a ∈ img.text, ∀ k < 4, inRegions t.params.text (a + k) = true) ∧
    (img.fits s = false → s.load img = none)

/-- What the assembler makes of an instruction's statement, under any ENC that encLegal admits (which tables those are
is the model's choice, log 1), decodes back to a well-formed instruction: the term its mnemonic and operands stand for
(30_encoding.md R107). -/
def Obligations.assembled_instructions_decode : Prop :=
  ∀ (enc : Enc) (syms : AsmSymbols) (addr : Nat) (m : String) (ops : List AsmOperand) (bs : List Byte),
    encLegal enc = true → (AsmStatement.instruction m ops).bytes enc syms addr = .ok (bs, true) →
      ∃ i, assembleInstr syms addr m ops = .ok i ∧ i.wellFormed = true ∧ decodeBytesWith enc bs = .ok (i, [])
end

