-- ==== Sys2Proof/Laws/Decode.lean ====
section
/-! SUPPORT. The fields of a packed word, a word from its fields, the number of a word under an ENC, and the byte order
of a word. -/

namespace Sys2Proof

/-! ### Fields of a packed word (30_encoding.md R91 to R93) -/

@[simp] theorem opField_packR (op : BitVec 6) (a b c : BitVec 5) (f : BitVec 11) : opField (packR op a b c f) = op := by
  ext k hk
  simp [opField, packR]
  grind

@[simp] theorem rs1Field_packR (op : BitVec 6) (a b c : BitVec 5) (f : BitVec 11) :
    rs1Field (packR op a b c f) = a := by
  ext k hk
  simp [rs1Field, packR]
  grind

@[simp] theorem rs2Field_packR (op : BitVec 6) (a b c : BitVec 5) (f : BitVec 11) :
    rs2Field (packR op a b c f) = b := by
  ext k hk
  simp [rs2Field, packR]
  grind

@[simp] theorem rdFieldR_packR (op : BitVec 6) (a b c : BitVec 5) (f : BitVec 11) :
    rdFieldR (packR op a b c f) = c := by
  ext k hk
  simp [rdFieldR, packR]
  grind

@[simp] theorem funcField_packR (op : BitVec 6) (a b c : BitVec 5) (f : BitVec 11) :
    funcField (packR op a b c f) = f := by
  ext k hk
  simp [funcField, packR]
  grind

@[simp] theorem opField_packI (op : BitVec 6) (a b : BitVec 5) (i : Imm16) : opField (packI op a b i) = op := by
  ext k hk
  simp [opField, packI]
  grind

@[simp] theorem rs1Field_packI (op : BitVec 6) (a b : BitVec 5) (i : Imm16) : rs1Field (packI op a b i) = a := by
  ext k hk
  simp [rs1Field, packI]
  grind

@[simp] theorem rdFieldI_packI (op : BitVec 6) (a b : BitVec 5) (i : Imm16) : rdFieldI (packI op a b i) = b := by
  ext k hk
  simp [rdFieldI, packI]
  grind

@[simp] theorem imm16Field_packI (op : BitVec 6) (a b : BitVec 5) (i : Imm16) : imm16Field (packI op a b i) = i := by
  ext k hk
  simp [imm16Field, packI]
  grind

@[simp] theorem opField_packJ (op : BitVec 6) (o : Off26) : opField (packJ op o) = op := by
  ext k hk
  simp [opField, packJ]
  grind

@[simp] theorem off26Field_packJ (op : BitVec 6) (o : Off26) : off26Field (packJ op o) = o := by
  ext k hk
  simp [off26Field, packJ]
  grind

/-! ### A word from its fields -/

theorem packR_fields (w : Word) :
    packR (opField w) (rs1Field w) (rs2Field w) (rdFieldR w) (funcField w) = w := by
  ext k hk
  simp [packR, opField, rs1Field, rs2Field, rdFieldR, funcField]
  grind

theorem packI_fields (w : Word) : packI (opField w) (rs1Field w) (rdFieldI w) (imm16Field w) = w := by
  ext k hk
  simp [packI, opField, rs1Field, rdFieldI, imm16Field]
  grind

theorem packJ_fields (w : Word) : packJ (opField w) (off26Field w) = w := by
  ext k hk
  simp [packJ, opField, off26Field]
  grind

/-! ### Acceptance and pairs -/

theorem accept_ok_iff (unused pairs : List (BitVec 5)) (i j : Instr) :
    accept unused pairs i = .ok j ↔
      (∀ z ∈ unused, z = 0#5) ∧ (∀ r ∈ pairs, r.getLsbD 0 = false) ∧ i = j := by
  have hz : (unused.all (· == 0#5)) = true ↔ ∀ z ∈ unused, z = 0#5 := by simp
  have hp : (pairs.all (fun r => !r.getLsbD 0)) = true ↔ ∀ r ∈ pairs, r.getLsbD 0 = false := by
    rw [List.all_eq_true]
    simp only [Bool.not_eq_true']
  rw [← hz, ← hp]
  clear hz hp
  unfold accept
  cases unused.all (· == 0#5) <;> cases pairs.all (fun r => !r.getLsbD 0) <;> simp

/-- A pair's number is even exactly when its low bit is 0 (30_encoding.md R104 step 5). -/
theorem isPair_iff (r : DReg) : isPair r = true ↔ r.getLsbD 0 = false := by
  rw [isPair, beq_iff_eq, BitVec.getLsbD, Nat.testBit_zero]
  simp

/-! ### Any ENC (00_scope.md R12) -/

@[simp] theorem decodeWith_standard (w : Word) : decodeWith .standard w = decodeWord w := rfl

@[simp] theorem encodeWith_standard (i : Instr) : encodeWith .standard i = some (encode i) := rfl

@[simp] theorem encodeBytesWith_standard (i : Instr) : encodeBytesWith .standard i = some (encodeBytes i) := rfl

@[simp] theorem decodeBytesWith_standard (bs : List Byte) : decodeBytesWith .standard bs = decodeBytes bs := by
  unfold decodeBytesWith decodeBytes
  split <;> rfl

/-- A word bears the number put into it. -/
@[simp] theorem hasCode_putCode (c : Config.OpCode) (w : Word) : hasCode c (putCode c w) = true := by
  cases c <;> simp [hasCode, putCode]

/-- Two numbers that one word bears are not apart. -/
theorem codesApart_false_of_hasCode {c d : Config.OpCode} {w : Word} (hc : hasCode c w = true)
    (hd : hasCode d w = true) : codesApart c d = false := by
  cases c <;> cases d <;> simp_all [hasCode, codesApart]

/-- Putting a number of the same format into a word and the old one back gives the word. -/
theorem putCode_putCode {l : Config.EncLine} {w : Word} (hl : lineKeepsFormat l = true)
    (hw : hasCode l.code w = true) : putCode l.code (putCode l.standard w) = w := by
  obtain ⟨c, d⟩ := l
  cases c <;> cases d <;> simp_all [lineKeepsFormat, hasCode, putCode]
  · subst hw
    exact packJ_fields w
  · obtain ⟨rfl, rfl⟩ := hw
    exact packR_fields w

/-- Putting the mnemonic's default number back gives the word, likewise. -/
theorem putCode_standard_putCode {l : Config.EncLine} {w : Word} (hl : lineKeepsFormat l = true)
    (hw : hasCode l.standard w = true) : putCode l.standard (putCode l.code w) = w := by
  obtain ⟨c, d⟩ := l
  cases c <;> cases d <;> simp_all [lineKeepsFormat, hasCode, putCode]
  · subst hw
    exact packJ_fields w
  · obtain ⟨rfl, rfl⟩ := hw
    exact packR_fields w

/-- A word bears its default number. -/
theorem hasCode_defaultCode (w : Word) : hasCode (defaultCode w) w = true := by
  unfold defaultCode
  split <;> simp [hasCode]

theorem codesApart_comm (c d : Config.OpCode) : codesApart c d = codesApart d c := by
  cases c <;> cases d <;> simp [codesApart, bne_comm]

set_option maxRecDepth 20000 in
/-- No word bears two default numbers. -/
theorem defaultCodes_apart : defaultCodes.Pairwise (fun c d => codesApart c d = true) := by decide

/-- What a table that is an ENC is (00_scope.md R12). -/
theorem encLegal_table_iff (ls : List Config.EncLine) :
    encLegal (.table ls) = true ↔
      ls.Pairwise (fun l k => codesApart l.code k.code = true) ∧ (∀ l ∈ ls, lineKeepsFormat l = true) ∧
        (ls.map (·.standard)).Perm defaultCodes ∧ ∀ l ∈ fixedLines, l ∈ ls := by
  simp [encLegal, and_assoc]

/-- In a legal table no word bears the default numbers of two lines. -/
theorem standards_apart {ls : List Config.EncLine} (h : (ls.map (·.standard)).Perm defaultCodes) :
    ls.Pairwise (fun l k => codesApart l.standard k.standard = true) := by
  have hs := (h.pairwise_iff (R := fun c d => codesApart c d = true)
    (fun {a b} hab => by rw [codesApart_comm]; exact hab)).mpr defaultCodes_apart
  simpa [List.pairwise_map] using hs

/-- Where no word bears the numbers of two lines, the first line whose number a word bears is the one it bears. -/
theorem find_line {num : Config.EncLine → Config.OpCode} {ls : List Config.EncLine} {l : Config.EncLine} {w : Word}
    (h : ls.Pairwise (fun l k => codesApart (num l) (num k) = true)) (hl : l ∈ ls) (hw : hasCode (num l) w = true) :
    ls.find? (fun k => hasCode (num k) w) = some l := by
  induction h with
  | nil => cases hl
  | @cons k ks hk _ ih =>
    rcases List.mem_cons.mp hl with rfl | hm
    · simp [hw]
    · have hn : hasCode (num k) w = false := by
        by_contra hc
        have := hk l hm
        rw [codesApart_false_of_hasCode (by simpa using hc) hw] at this
        cases this
      simp [hn, ih hm]

/-- Under a legal ENC, translating a word to the default ENC and back gives the word. -/
theorem fromDefaultWord_of_toDefaultWord {enc : Config.Enc} (he : encLegal enc = true) {v w : Word}
    (h : toDefaultWord enc w = some v) : fromDefaultWord enc v = some w := by
  cases enc with
  | standard => simpa [toDefaultWord, fromDefaultWord, eq_comm] using h
  | table ls =>
    obtain ⟨-, hf, hd, -⟩ := (encLegal_table_iff ls).mp he
    obtain ⟨l, hl, rfl⟩ := Option.map_eq_some_iff.mp h
    have hm := List.mem_of_find?_eq_some hl
    have hw := List.find?_some (p := fun (l : Config.EncLine) => hasCode l.code w) hl
    simp [fromDefaultWord, find_line (standards_apart hd) hm (hasCode_putCode _ _), putCode_putCode (hf l hm) hw]

/-- Under a legal ENC, translating a word from the default ENC and back gives the word. -/
theorem toDefaultWord_of_fromDefaultWord {enc : Config.Enc} (he : encLegal enc = true) {v w : Word}
    (h : fromDefaultWord enc v = some w) : toDefaultWord enc w = some v := by
  cases enc with
  | standard => simpa [toDefaultWord, fromDefaultWord, eq_comm] using h
  | table ls =>
    obtain ⟨hc, hf, -, -⟩ := (encLegal_table_iff ls).mp he
    obtain ⟨l, hl, rfl⟩ := Option.map_eq_some_iff.mp h
    have hm := List.mem_of_find?_eq_some hl
    have hw := List.find?_some (p := fun (l : Config.EncLine) => hasCode l.standard v) hl
    simp [toDefaultWord, find_line hc hm (hasCode_putCode _ _), putCode_standard_putCode (hf l hm) hw]

/-! ### Byte order (20_memory.md R61) -/

theorem beValue_one (b0 : Byte) : beValue 8 [b0] = b0 := by
  ext k hk
  simp [beValue]

theorem beValue_two (b0 b1 : Byte) : beValue 16 [b0, b1] = (b0 ++ b1 : BitVec 16) := by
  ext k hk
  simp [beValue]
  grind

theorem beValue_four (b0 b1 b2 b3 : Byte) : beValue 32 [b0, b1, b2, b3] = (b0 ++ b1 ++ b2 ++ b3 : BitVec 32) := by
  ext k hk
  simp [beValue]
  grind

theorem beValue_eight (b0 b1 b2 b3 b4 b5 b6 b7 : Byte) :
    beValue 64 [b0, b1, b2, b3, b4, b5, b6, b7] =
      (b0 ++ b1 ++ b2 ++ b3 ++ b4 ++ b5 ++ b6 ++ b7 : BitVec 64) := by
  ext k hk
  simp [beValue]
  grind

@[simp] theorem beBytes_length {k : Nat} (n : Nat) (v : BitVec k) : (beBytes n v).length = n := by
  induction n with
  | zero => rfl
  | succ n ih => simp [beBytes, ih]

/-- The four bytes of a word give the word back. -/
@[simp] theorem beValue_beBytes_four (w : Word) : beValue 32 (beBytes 4 w) = w := by
  rw [beBytes, beBytes, beBytes, beBytes, beBytes, beValue_four]
  ext k hk
  simp
  grind

/-- The eight bytes of a double word give the double word back. -/
@[simp] theorem beValue_beBytes_eight (v : DWord) : beValue 64 (beBytes 8 v) = v := by
  rw [beBytes, beBytes, beBytes, beBytes, beBytes, beBytes, beBytes, beBytes, beBytes, beValue_eight]
  ext k hk
  simp
  grind

end Sys2Proof
end

