-- ==== Sys2Proof/Laws/State.lean ====
section
/-! SUPPORT. One lemma per field per update of State, true by rfl, and what the register accessors read after each
update. -/

namespace Sys2Proof.Machine

/-! ### Reset (10_state.md R46) -/

@[simp] theorem State.resetWith_pc (p : Config.Params) : (State.resetWith p).pc = p.entry := rfl
@[simp] theorem State.resetWith_mem (p : Config.Params) : (State.resetWith p).mem = [] := rfl
@[simp] theorem State.resetWith_status (p : Config.Params) : (State.resetWith p).status = .running := rfl
@[simp] theorem State.resetWith_params (p : Config.Params) : (State.resetWith p).params = p := rfl

/-! ### The numerics record (00_scope.md R13) -/

/-- The record depends on the parameters alone. -/
theorem State.numerics_congr {s t : State} (h : t.params = s.params) : t.numerics = s.numerics := by
  unfold State.numerics
  rw [h]

/-- By default it is IEEE 754. -/
theorem State.numerics_ieee754 {s : State} (h : s.params.fp = .ieee754) : s.numerics = ieee754 := by
  unfold State.numerics
  rw [h]
  rfl

/-! ### Fields after an update -/

@[simp] theorem State.setGpr_f (s : State) (r : GReg) (v : Word) : (s.setGpr r v).f = s.f := rfl
@[simp] theorem State.setGpr_fpsrC (s : State) (r : GReg) (v : Word) : (s.setGpr r v).fpsrC = s.fpsrC := rfl
@[simp] theorem State.setGpr_pc (s : State) (r : GReg) (v : Word) : (s.setGpr r v).pc = s.pc := rfl
@[simp] theorem State.setGpr_mem (s : State) (r : GReg) (v : Word) : (s.setGpr r v).mem = s.mem := rfl
@[simp] theorem State.setGpr_status (s : State) (r : GReg) (v : Word) : (s.setGpr r v).status = s.status := rfl
@[simp] theorem State.setGpr_draws (s : State) (r : GReg) (v : Word) : (s.setGpr r v).draws = s.draws := rfl
@[simp] theorem State.setGpr_params (s : State) (r : GReg) (v : Word) : (s.setGpr r v).params = s.params := rfl

@[simp] theorem State.setFpr_x (s : State) (r : FReg) (v : Word) : (s.setFpr r v).x = s.x := rfl
@[simp] theorem State.setFpr_fpsrC (s : State) (r : FReg) (v : Word) : (s.setFpr r v).fpsrC = s.fpsrC := rfl
@[simp] theorem State.setFpr_pc (s : State) (r : FReg) (v : Word) : (s.setFpr r v).pc = s.pc := rfl
@[simp] theorem State.setFpr_mem (s : State) (r : FReg) (v : Word) : (s.setFpr r v).mem = s.mem := rfl
@[simp] theorem State.setFpr_status (s : State) (r : FReg) (v : Word) : (s.setFpr r v).status = s.status := rfl
@[simp] theorem State.setFpr_draws (s : State) (r : FReg) (v : Word) : (s.setFpr r v).draws = s.draws := rfl
@[simp] theorem State.setFpr_params (s : State) (r : FReg) (v : Word) : (s.setFpr r v).params = s.params := rfl

@[simp] theorem State.setDbl_x (s : State) (r : DReg) (v : DWord) : (s.setDbl r v).x = s.x := rfl
@[simp] theorem State.setDbl_fpsrC (s : State) (r : DReg) (v : DWord) : (s.setDbl r v).fpsrC = s.fpsrC := rfl
@[simp] theorem State.setDbl_pc (s : State) (r : DReg) (v : DWord) : (s.setDbl r v).pc = s.pc := rfl
@[simp] theorem State.setDbl_mem (s : State) (r : DReg) (v : DWord) : (s.setDbl r v).mem = s.mem := rfl
@[simp] theorem State.setDbl_status (s : State) (r : DReg) (v : DWord) : (s.setDbl r v).status = s.status := rfl
@[simp] theorem State.setDbl_draws (s : State) (r : DReg) (v : DWord) : (s.setDbl r v).draws = s.draws := rfl
@[simp] theorem State.setDbl_params (s : State) (r : DReg) (v : DWord) : (s.setDbl r v).params = s.params := rfl

@[simp] theorem State.setFpsrC_x (s : State) (c : Bool) : (s.setFpsrC c).x = s.x := rfl
@[simp] theorem State.setFpsrC_f (s : State) (c : Bool) : (s.setFpsrC c).f = s.f := rfl
@[simp] theorem State.setFpsrC_fpsrC (s : State) (c : Bool) : (s.setFpsrC c).fpsrC = c := rfl
@[simp] theorem State.setFpsrC_pc (s : State) (c : Bool) : (s.setFpsrC c).pc = s.pc := rfl
@[simp] theorem State.setFpsrC_mem (s : State) (c : Bool) : (s.setFpsrC c).mem = s.mem := rfl
@[simp] theorem State.setFpsrC_status (s : State) (c : Bool) : (s.setFpsrC c).status = s.status := rfl
@[simp] theorem State.setFpsrC_draws (s : State) (c : Bool) : (s.setFpsrC c).draws = s.draws := rfl
@[simp] theorem State.setFpsrC_params (s : State) (c : Bool) : (s.setFpsrC c).params = s.params := rfl

@[simp] theorem State.jump_x (s : State) (a : Word) : (s.jump a).x = s.x := rfl
@[simp] theorem State.jump_f (s : State) (a : Word) : (s.jump a).f = s.f := rfl
@[simp] theorem State.jump_fpsrC (s : State) (a : Word) : (s.jump a).fpsrC = s.fpsrC := rfl
@[simp] theorem State.jump_pc (s : State) (a : Word) : (s.jump a).pc = a := rfl
@[simp] theorem State.jump_mem (s : State) (a : Word) : (s.jump a).mem = s.mem := rfl
@[simp] theorem State.jump_status (s : State) (a : Word) : (s.jump a).status = s.status := rfl
@[simp] theorem State.jump_draws (s : State) (a : Word) : (s.jump a).draws = s.draws := rfl
@[simp] theorem State.jump_params (s : State) (a : Word) : (s.jump a).params = s.params := rfl

@[simp] theorem State.advance_x (s : State) : (s.advance).x = s.x := rfl
@[simp] theorem State.advance_f (s : State) : (s.advance).f = s.f := rfl
@[simp] theorem State.advance_fpsrC (s : State) : (s.advance).fpsrC = s.fpsrC := rfl
@[simp] theorem State.advance_pc (s : State) : (s.advance).pc = s.pc + 4#32 := rfl
@[simp] theorem State.advance_mem (s : State) : (s.advance).mem = s.mem := rfl
@[simp] theorem State.advance_status (s : State) : (s.advance).status = s.status := rfl
@[simp] theorem State.advance_draws (s : State) : (s.advance).draws = s.draws := rfl
@[simp] theorem State.advance_params (s : State) : (s.advance).params = s.params := rfl

@[simp] theorem State.setStatus_x (s : State) (st : RunStatus) : (s.setStatus st).x = s.x := rfl
@[simp] theorem State.setStatus_f (s : State) (st : RunStatus) : (s.setStatus st).f = s.f := rfl
@[simp] theorem State.setStatus_fpsrC (s : State) (st : RunStatus) : (s.setStatus st).fpsrC = s.fpsrC := rfl
@[simp] theorem State.setStatus_pc (s : State) (st : RunStatus) : (s.setStatus st).pc = s.pc := rfl
@[simp] theorem State.setStatus_mem (s : State) (st : RunStatus) : (s.setStatus st).mem = s.mem := rfl
@[simp] theorem State.setStatus_status (s : State) (st : RunStatus) : (s.setStatus st).status = st := rfl
@[simp] theorem State.setStatus_draws (s : State) (st : RunStatus) : (s.setStatus st).draws = s.draws := rfl
@[simp] theorem State.setStatus_params (s : State) (st : RunStatus) : (s.setStatus st).params = s.params := rfl

@[simp] theorem State.nextDraw_x (s : State) : (s.nextDraw).x = s.x := rfl
@[simp] theorem State.nextDraw_f (s : State) : (s.nextDraw).f = s.f := rfl
@[simp] theorem State.nextDraw_fpsrC (s : State) : (s.nextDraw).fpsrC = s.fpsrC := rfl
@[simp] theorem State.nextDraw_pc (s : State) : (s.nextDraw).pc = s.pc := rfl
@[simp] theorem State.nextDraw_mem (s : State) : (s.nextDraw).mem = s.mem := rfl
@[simp] theorem State.nextDraw_status (s : State) : (s.nextDraw).status = s.status := rfl
@[simp] theorem State.nextDraw_draws (s : State) : (s.nextDraw).draws = s.draws + 1 := rfl
@[simp] theorem State.nextDraw_params (s : State) : (s.nextDraw).params = s.params := rfl

@[simp] theorem State.writeByte_x (s : State) (a : Nat) (v : Byte) : (s.writeByte a v).x = s.x := rfl
@[simp] theorem State.writeByte_f (s : State) (a : Nat) (v : Byte) : (s.writeByte a v).f = s.f := rfl
@[simp] theorem State.writeByte_fpsrC (s : State) (a : Nat) (v : Byte) : (s.writeByte a v).fpsrC = s.fpsrC := rfl
@[simp] theorem State.writeByte_pc (s : State) (a : Nat) (v : Byte) : (s.writeByte a v).pc = s.pc := rfl
@[simp] theorem State.writeByte_status (s : State) (a : Nat) (v : Byte) : (s.writeByte a v).status = s.status := rfl
@[simp] theorem State.writeByte_draws (s : State) (a : Nat) (v : Byte) : (s.writeByte a v).draws = s.draws := rfl
@[simp] theorem State.writeByte_params (s : State) (a : Nat) (v : Byte) : (s.writeByte a v).params = s.params := rfl

/-! ### Registers after an update of something else -/

@[simp] theorem State.setGpr_fpr (s : State) (r : GReg) (v : Word) (q : FReg) : (s.setGpr r v).fpr q = s.fpr q := rfl
@[simp] theorem State.setGpr_dbl (s : State) (r : GReg) (v : Word) (q : DReg) : (s.setGpr r v).dbl q = s.dbl q := rfl
@[simp] theorem State.setGpr_readByte (s : State) (r : GReg) (v : Word) (b : Nat) : (s.setGpr r v).readByte b = s.readByte b := rfl

@[simp] theorem State.setFpr_gpr (s : State) (r : FReg) (v : Word) (q : GReg) : (s.setFpr r v).gpr q = s.gpr q := rfl
@[simp] theorem State.setFpr_readByte (s : State) (r : FReg) (v : Word) (b : Nat) : (s.setFpr r v).readByte b = s.readByte b := rfl

@[simp] theorem State.setDbl_gpr (s : State) (r : DReg) (v : DWord) (q : GReg) : (s.setDbl r v).gpr q = s.gpr q := rfl
@[simp] theorem State.setDbl_readByte (s : State) (r : DReg) (v : DWord) (b : Nat) : (s.setDbl r v).readByte b = s.readByte b := rfl

@[simp] theorem State.setFpsrC_gpr (s : State) (c : Bool) (q : GReg) : (s.setFpsrC c).gpr q = s.gpr q := rfl
@[simp] theorem State.setFpsrC_fpr (s : State) (c : Bool) (q : FReg) : (s.setFpsrC c).fpr q = s.fpr q := rfl
@[simp] theorem State.setFpsrC_dbl (s : State) (c : Bool) (q : DReg) : (s.setFpsrC c).dbl q = s.dbl q := rfl
@[simp] theorem State.setFpsrC_readByte (s : State) (c : Bool) (b : Nat) : (s.setFpsrC c).readByte b = s.readByte b := rfl

@[simp] theorem State.jump_gpr (s : State) (a : Word) (q : GReg) : (s.jump a).gpr q = s.gpr q := rfl
@[simp] theorem State.jump_fpr (s : State) (a : Word) (q : FReg) : (s.jump a).fpr q = s.fpr q := rfl
@[simp] theorem State.jump_dbl (s : State) (a : Word) (q : DReg) : (s.jump a).dbl q = s.dbl q := rfl
@[simp] theorem State.jump_readByte (s : State) (a : Word) (b : Nat) : (s.jump a).readByte b = s.readByte b := rfl

@[simp] theorem State.advance_gpr (s : State) (q : GReg) : (s.advance).gpr q = s.gpr q := rfl
@[simp] theorem State.advance_fpr (s : State) (q : FReg) : (s.advance).fpr q = s.fpr q := rfl
@[simp] theorem State.advance_dbl (s : State) (q : DReg) : (s.advance).dbl q = s.dbl q := rfl
@[simp] theorem State.advance_readByte (s : State) (b : Nat) : (s.advance).readByte b = s.readByte b := rfl

@[simp] theorem State.setStatus_gpr (s : State) (st : RunStatus) (q : GReg) : (s.setStatus st).gpr q = s.gpr q := rfl
@[simp] theorem State.setStatus_fpr (s : State) (st : RunStatus) (q : FReg) : (s.setStatus st).fpr q = s.fpr q := rfl
@[simp] theorem State.setStatus_dbl (s : State) (st : RunStatus) (q : DReg) : (s.setStatus st).dbl q = s.dbl q := rfl
@[simp] theorem State.setStatus_readByte (s : State) (st : RunStatus) (b : Nat) : (s.setStatus st).readByte b = s.readByte b := rfl

@[simp] theorem State.nextDraw_gpr (s : State) (q : GReg) : (s.nextDraw).gpr q = s.gpr q := rfl
@[simp] theorem State.nextDraw_fpr (s : State) (q : FReg) : (s.nextDraw).fpr q = s.fpr q := rfl
@[simp] theorem State.nextDraw_dbl (s : State) (q : DReg) : (s.nextDraw).dbl q = s.dbl q := rfl
@[simp] theorem State.nextDraw_readByte (s : State) (b : Nat) : (s.nextDraw).readByte b = s.readByte b := rfl

@[simp] theorem State.writeByte_gpr (s : State) (a : Nat) (v : Byte) (q : GReg) : (s.writeByte a v).gpr q = s.gpr q := rfl
@[simp] theorem State.writeByte_fpr (s : State) (a : Nat) (v : Byte) (q : FReg) : (s.writeByte a v).fpr q = s.fpr q := rfl
@[simp] theorem State.writeByte_dbl (s : State) (a : Nat) (v : Byte) (q : DReg) : (s.writeByte a v).dbl q = s.dbl q := rfl

/-! ### Registers after a write of a register -/

/-- R0 reads zero (10_state.md R31). -/
@[simp] theorem State.gpr_zero (s : State) : s.gpr 0#5 = 0#32 := rfl

/-- A write to R0 is discarded (10_state.md R31). -/
@[simp] theorem State.setGpr_zero (s : State) (v : Word) : s.setGpr 0#5 v = s := rfl

theorem State.gpr_setGpr_self (s : State) (r : GReg) (v : Word) :
    (s.setGpr r v).gpr r = if r = 0#5 then 0#32 else v := by
  unfold State.setGpr State.gpr
  split <;> simp

theorem State.gpr_setGpr_of_ne (s : State) {r q : GReg} (v : Word) (h : q ≠ r) :
    (s.setGpr r v).gpr q = s.gpr q := by
  have hn : r.toNat ≠ q.toNat := fun e => h (BitVec.eq_of_toNat_eq e.symm)
  unfold State.setGpr State.gpr
  by_cases hr : r = 0#5
  · simp [hr]
  · by_cases hq : q = 0#5
    · simp [hq]
    · simp only [hr, hq, if_false]
      exact Vector.getElem_set_ne _ _ hn

/-- What a general register reads after a write (10_state.md R30, R31). -/
theorem State.gpr_setGpr (s : State) (r q : GReg) (v : Word) :
    (s.setGpr r v).gpr q = if q = r ∧ r ≠ 0#5 then v else s.gpr q := by
  by_cases h : q = r
  · subst h
    rw [State.gpr_setGpr_self]
    by_cases h0 : q = 0#5
    · simp [h0]
    · simp [h0]
  · simp [h, State.gpr_setGpr_of_ne s v h]

@[simp] theorem State.fpr_setFpr_self (s : State) (r : FReg) (v : Word) : (s.setFpr r v).fpr r = v := by
  simp [State.setFpr, State.fpr]

theorem State.fpr_setFpr_of_ne (s : State) {r q : FReg} (v : Word) (h : q ≠ r) :
    (s.setFpr r v).fpr q = s.fpr q := by
  have hn : r.toNat ≠ q.toNat := fun e => h (BitVec.eq_of_toNat_eq e.symm)
  simp [State.setFpr, State.fpr, hn]

/-- What a floating-point register reads after a write (10_state.md R36). -/
theorem State.fpr_setFpr (s : State) (r q : FReg) (v : Word) :
    (s.setFpr r v).fpr q = if q = r then v else s.fpr q := by
  by_cases h : q = r
  · simp [h]
  · simp [h, State.fpr_setFpr_of_ne s v h]

theorem odd_ne (r : DReg) : r ≠ r + 1#5 := by
  intro h
  have : r.toNat = (r + 1#5).toNat := congrArg BitVec.toNat h
  simp [BitVec.toNat_add] at this
  omega

/-- What a floating-point register reads after a write of a pair (10_state.md R37). -/
theorem State.fpr_setDbl (s : State) (r q : FReg) (v : DWord) :
    (s.setDbl r v).fpr q =
      if q = r + 1#5 then v.extractLsb' 0 32 else if q = r then v.extractLsb' 32 32 else s.fpr q := by
  unfold State.setDbl
  rw [State.fpr_setFpr, State.fpr_setFpr]

theorem append_halves (v : DWord) : (v.extractLsb' 32 32 ++ v.extractLsb' 0 32 : DWord) = v := by
  ext i hi
  simp
  grind

/-- A pair reads what was written to it (10_state.md R37). -/
@[simp] theorem State.dbl_setDbl_self (s : State) (r : DReg) (v : DWord) : (s.setDbl r v).dbl r = v := by
  unfold State.dbl
  rw [State.fpr_setDbl, State.fpr_setDbl, if_neg (odd_ne r), if_pos rfl, if_pos rfl]
  exact append_halves v

end Sys2Proof.Machine
end

