-- ==== Sys2Proof/Laws/Memory.lean ====
section
/-! SUPPORT. Memory: what a byte reads after a write, and that every memory operation keeps the canonical form. -/

namespace Sys2Proof.Machine

open Sys2Proof.Config

/-! ### The list of cells -/

/-- No address up to `a` is listed. -/
def Above (a : Nat) (m : Memory) : Prop := ∀ c ∈ m, a < c.1

/-- The addresses rise strictly. -/
def Rising (m : Memory) : Prop := m.Pairwise (fun c d => c.1 < d.1)

theorem memLookup_of_above {a : Nat} {m : Memory} (h : Above a m) : memLookup m a = none := by
  induction m with
  | nil => rfl
  | cons c m ih =>
    have hc : a < c.1 := h c (by simp)
    have : c.1 ≠ a := by omega
    simp only [memLookup, this, if_false]
    exact ih (fun d hd => h d (by simp [hd]))

theorem memLookup_memInsert (m : Memory) (a b : Nat) (v : Byte) :
    memLookup (memInsert a v m) b = if b = a then some v else memLookup m b := by
  induction m with
  | nil => simp [memInsert, memLookup, eq_comm]
  | cons c m ih =>
    obtain ⟨k, w⟩ := c
    by_cases h1 : a < k
    · simp [memInsert, memLookup, h1, eq_comm]
    · by_cases h2 : a = k
      · subst h2
        by_cases h3 : b = a
        · simp [memInsert, memLookup, h3]
        · have : a ≠ b := fun e => h3 e.symm
          simp [memInsert, memLookup, h3, this]
      · by_cases h3 : k = b
        · subst h3
          have : k ≠ a := fun e => h2 e.symm
          simp [memInsert, memLookup, h1, h2, this]
        · simp [memInsert, memLookup, h1, h2, h3, ih]

theorem memLookup_memErase {m : Memory} (h : Rising m) (a b : Nat) :
    memLookup (memErase a m) b = if b = a then none else memLookup m b := by
  induction m with
  | nil => simp [memErase, memLookup]
  | cons c m ih =>
    obtain ⟨k, w⟩ := c
    have hm : Rising m := (List.pairwise_cons.mp h).2
    have hk : Above k m := (List.pairwise_cons.mp h).1
    by_cases h2 : a = k
    · subst h2
      by_cases h3 : b = a
      · subst h3
        simp [memErase, memLookup_of_above hk]
      · have : a ≠ b := fun e => h3 e.symm
        simp [memErase, memLookup, h3, this]
    · by_cases h3 : k = b
      · subst h3
        have : k ≠ a := fun e => h2 e.symm
        simp [memErase, memLookup, h2, this]
      · simp [memErase, memLookup, h2, h3, ih hm]

theorem mem_memInsert {m : Memory} {a : Nat} {v : Byte} {c : Host.Cell} (h : c ∈ memInsert a v m) :
    c = (a, v) ∨ c ∈ m := by
  induction m with
  | nil => simpa [memInsert] using h
  | cons d m ih =>
    obtain ⟨k, w⟩ := d
    simp only [memInsert] at h
    split at h
    · simpa using h
    · split at h
      · rcases List.mem_cons.mp h with h | h
        · exact .inl h
        · exact .inr (by simp [h])
      · rcases List.mem_cons.mp h with h | h
        · exact .inr (by simp [h])
        · rcases ih h with h | h
          · exact .inl h
          · exact .inr (by simp [h])

theorem mem_memErase {m : Memory} {a : Nat} {c : Host.Cell} (h : c ∈ memErase a m) : c ∈ m := by
  induction m with
  | nil => simp [memErase] at h
  | cons d m ih =>
    obtain ⟨k, w⟩ := d
    simp only [memErase] at h
    split at h
    · simp [h]
    · rcases List.mem_cons.mp h with h | h
      · simp [h]
      · simp [ih h]

theorem memInsert_rising {m : Memory} (h : Rising m) (a : Nat) (v : Byte) : Rising (memInsert a v m) := by
  induction m with
  | nil => simp [memInsert, Rising]
  | cons d m ih =>
    obtain ⟨k, w⟩ := d
    obtain ⟨hk, hm⟩ := List.pairwise_cons.mp h
    simp only [memInsert]
    split
    · rename_i hlt
      refine List.pairwise_cons.mpr ⟨fun c hc => ?_, h⟩
      rcases List.mem_cons.mp hc with rfl | hc
      · exact hlt
      · exact lt_trans hlt (hk c hc)
    · split
      · rename_i heq
        subst heq
        exact List.pairwise_cons.mpr ⟨hk, hm⟩
      · refine List.pairwise_cons.mpr ⟨fun c hc => ?_, ih hm⟩
        rcases mem_memInsert hc with rfl | hc
        · change k < a
          omega
        · exact hk c hc

theorem memErase_rising {m : Memory} (h : Rising m) (a : Nat) : Rising (memErase a m) := by
  induction m with
  | nil => simp [memErase, Rising]
  | cons d m ih =>
    obtain ⟨k, w⟩ := d
    obtain ⟨hk, hm⟩ := List.pairwise_cons.mp h
    simp only [memErase]
    split
    · exact hm
    · exact List.pairwise_cons.mpr ⟨fun c hc => hk c (mem_memErase hc), ih hm⟩

/-! ### The canonical form -/

theorem Memory.wf_iff (u : UnwrittenRead) (m : Memory) :
    Memory.wf u m = true ↔ Rising m ∧ ∀ c ∈ m, c.1 < 2 ^ 32 ∧ unlistedByte u c.1 ≠ some c.2 := by
  simp [Memory.wf, Rising]

/-- The memory of a canonical state rises. -/
theorem Memory.wf_rising {u : UnwrittenRead} {m : Memory} (h : Memory.wf u m = true) : Rising m :=
  ((Memory.wf_iff u m).mp h).1

/-- Writing a byte of the address space keeps the canonical form. -/
theorem writeByte_wf {s : State} {a : Nat} (v : Byte) (ha : a < 2 ^ 32)
    (h : Memory.wf s.params.unwrittenRead s.mem = true) :
    Memory.wf s.params.unwrittenRead (s.writeByte a v).mem = true := by
  obtain ⟨hr, hc⟩ := (Memory.wf_iff _ _).mp h
  rw [Memory.wf_iff]
  unfold State.writeByte
  simp only
  split
  · exact ⟨memErase_rising hr a, fun c hm => hc c (mem_memErase hm)⟩
  · rename_i hne
    refine ⟨memInsert_rising hr a v, fun c hm => ?_⟩
    rcases mem_memInsert hm with rfl | hm
    · exact ⟨ha, hne⟩
    · exact hc c hm

/-- Writing bytes inside the address space keeps the canonical form. -/
theorem writeBytes_wf {s : State} {a : Nat} (bs : List Byte) (ha : a + bs.length ≤ 2 ^ 32)
    (h : Memory.wf s.params.unwrittenRead s.mem = true) :
    Memory.wf s.params.unwrittenRead (s.writeBytes a bs).mem = true := by
  induction bs generalizing s a with
  | nil => exact h
  | cons b bs ih =>
    simp only [List.length_cons] at ha
    exact ih (s := s.writeByte a b) (by omega) (writeByte_wf b (by omega) h)

/-! ### What a byte reads after a write -/

/-- A byte reads what was last written to it, every other byte reads as before (20_memory.md R66, R72). -/
theorem readByte_writeByte {s : State} (h : Rising s.mem) (a b : Nat) (v : Byte) :
    (s.writeByte a v).readByte b = if b = a then some v else s.readByte b := by
  unfold State.readByte State.writeByte
  by_cases hu : unlistedByte s.params.unwrittenRead a = some v
  · simp only [hu, if_true]
    rw [memLookup_memErase h]
    by_cases hb : b = a
    · subst hb
      simp [hu]
    · simp [hb]
  · simp only [hu, if_false]
    rw [memLookup_memInsert]
    by_cases hb : b = a <;> simp [hb]

theorem writeByte_rising {s : State} (h : Rising s.mem) (a : Nat) (v : Byte) : Rising (s.writeByte a v).mem := by
  unfold State.writeByte
  simp only
  split
  · exact memErase_rising h a
  · exact memInsert_rising h a v

theorem writeBytes_rising {s : State} (h : Rising s.mem) (a : Nat) (bs : List Byte) :
    Rising (s.writeBytes a bs).mem := by
  induction bs generalizing s a with
  | nil => exact h
  | cons b bs ih => exact ih (writeByte_rising h a b) (a + 1)

/-- What a byte reads after several were written (20_memory.md R64 step 4). -/
theorem readByte_writeBytes {s : State} (h : Rising s.mem) (a b : Nat) (bs : List Byte) :
    (s.writeBytes a bs).readByte b =
      if a ≤ b ∧ b < a + bs.length then bs[b - a]? else s.readByte b := by
  induction bs generalizing s a with
  | nil =>
    have : ¬(a ≤ b ∧ b < a + ([] : List Byte).length) := by simp only [List.length_nil]; omega
    rw [if_neg this]
    rfl
  | cons c bs ih =>
    rw [State.writeBytes, ih (writeByte_rising h a c), readByte_writeByte h]
    by_cases h1 : b = a
    · subst h1
      simp
    · by_cases h2 : a + 1 ≤ b ∧ b < a + 1 + bs.length
      · have h3 : a ≤ b ∧ b < a + (c :: bs).length := by simp only [List.length_cons]; omega
        rw [if_pos h2, if_pos h3]
        have : b - a = (b - (a + 1)) + 1 := by omega
        rw [this, List.getElem?_cons_succ]
      · have h3 : ¬(a ≤ b ∧ b < a + (c :: bs).length) := by simp only [List.length_cons]; omega
        rw [if_neg h2, if_neg h3, if_neg h1]

/-! ### writeBytes changes memory alone -/

theorem writeBytes_eq (s : State) (a : Nat) (bs : List Byte) :
    s.writeBytes a bs = { s with mem := (s.writeBytes a bs).mem } := by
  induction bs generalizing s a with
  | nil => rfl
  | cons b bs ih =>
    rw [State.writeBytes, ih]
    rfl

@[simp] theorem State.writeBytes_x (s : State) (a : Nat) (bs : List Byte) : (s.writeBytes a bs).x = s.x := by
  rw [writeBytes_eq]
@[simp] theorem State.writeBytes_f (s : State) (a : Nat) (bs : List Byte) : (s.writeBytes a bs).f = s.f := by
  rw [writeBytes_eq]
@[simp] theorem State.writeBytes_fpsrC (s : State) (a : Nat) (bs : List Byte) :
    (s.writeBytes a bs).fpsrC = s.fpsrC := by
  rw [writeBytes_eq]
@[simp] theorem State.writeBytes_pc (s : State) (a : Nat) (bs : List Byte) : (s.writeBytes a bs).pc = s.pc := by
  rw [writeBytes_eq]
@[simp] theorem State.writeBytes_status (s : State) (a : Nat) (bs : List Byte) :
    (s.writeBytes a bs).status = s.status := by
  rw [writeBytes_eq]
@[simp] theorem State.writeBytes_draws (s : State) (a : Nat) (bs : List Byte) :
    (s.writeBytes a bs).draws = s.draws := by
  rw [writeBytes_eq]
@[simp] theorem State.writeBytes_params (s : State) (a : Nat) (bs : List Byte) :
    (s.writeBytes a bs).params = s.params := by
  rw [writeBytes_eq]
@[simp] theorem State.writeBytes_gpr (s : State) (a : Nat) (bs : List Byte) (r : GReg) :
    (s.writeBytes a bs).gpr r = s.gpr r := by
  rw [writeBytes_eq]
  rfl
@[simp] theorem State.writeBytes_fpr (s : State) (a : Nat) (bs : List Byte) (r : FReg) :
    (s.writeBytes a bs).fpr r = s.fpr r := by
  rw [writeBytes_eq]
  rfl

/-! ### Regions -/

theorem allInRegions_iff (rs : List Region) (a n : Nat) :
    allInRegions rs a n = true ↔ ∀ i < n, inRegions rs (a + i) = true := by
  induction n generalizing a with
  | zero => simp [allInRegions]
  | succ n ih =>
    simp only [allInRegions, Bool.and_eq_true, ih]
    constructor
    · rintro ⟨h0, h⟩ i hi
      cases i with
      | zero => exact h0
      | succ i =>
        have := h i (by omega)
        rwa [show a + 1 + i = a + (i + 1) by omega] at this
    · intro h
      refine ⟨h 0 (by omega), fun i hi => ?_⟩
      have := h (i + 1) (by omega)
      rwa [show a + (i + 1) = a + 1 + i by omega] at this

theorem someInRegions_iff (rs : List Region) (a n : Nat) :
    someInRegions rs a n = true ↔ ∃ i < n, inRegions rs (a + i) = true := by
  induction n generalizing a with
  | zero => simp [someInRegions]
  | succ n ih =>
    simp only [someInRegions, Bool.or_eq_true, ih]
    constructor
    · rintro (h0 | ⟨i, hi, h⟩)
      · exact ⟨0, by omega, h0⟩
      · exact ⟨i + 1, by omega, by rwa [show a + (i + 1) = a + 1 + i by omega]⟩
    · rintro ⟨i, hi, h⟩
      cases i with
      | zero => exact .inl h
      | succ i => exact .inr ⟨i, by omega, by rwa [show a + 1 + i = a + (i + 1) by omega]⟩

/-! ### Reading several bytes -/

/-- Reading n bytes answers the bytes at the n addresses, in order (20_memory.md R63 step 4). -/
theorem readBytes_ok_iff (s : State) (a n : Nat) (bs : List Byte) :
    s.readBytes a n = .ok bs ↔ bs.length = n ∧ ∀ i < n, s.readByte (a + i) = bs[i]? := by
  induction n generalizing a bs with
  | zero =>
    simp only [State.readBytes, Except.ok.injEq]
    constructor
    · rintro rfl
      simp
    · rintro ⟨h, -⟩
      exact (List.length_eq_zero_iff.mp h).symm
  | succ n ih =>
    simp only [State.readBytes]
    cases hb : s.readByte a with
    | none =>
      simp only [reduceCtorEq, false_iff, not_and]
      intro hl h
      have := h 0 (by omega)
      rw [Nat.add_zero, hb] at this
      cases bs with
      | nil => simp at hl
      | cons c cs => simp at this
    | some b =>
      simp only
      cases hr : s.readBytes (a + 1) n with
      | error f =>
        simp only [reduceCtorEq, false_iff, not_and]
        intro hl h
        cases bs with
        | nil => simp at hl
        | cons c cs =>
          have : s.readBytes (a + 1) n = .ok cs := by
            rw [ih]
            refine ⟨by simpa using hl, fun i hi => ?_⟩
            have := h (i + 1) (by omega)
            rw [show a + (i + 1) = a + 1 + i by omega] at this
            simpa using this
          rw [hr] at this
          cases this
      | ok cs =>
        simp only [Except.ok.injEq]
        have hcs := (ih (a + 1) cs).mp hr
        constructor
        · rintro rfl
          refine ⟨by simp [hcs.1], fun i hi => ?_⟩
          cases i with
          | zero => simpa using hb
          | succ i =>
            have := hcs.2 i (by omega)
            rw [show a + (i + 1) = a + 1 + i by omega]
            simpa using this
        · rintro ⟨hl, h⟩
          cases bs with
          | nil => simp at hl
          | cons c ds =>
            have h0 := h 0 (by omega)
            rw [Nat.add_zero, hb] at h0
            have hd : s.readBytes (a + 1) n = .ok ds := by
              rw [ih]
              refine ⟨by simpa using hl, fun i hi => ?_⟩
              have := h (i + 1) (by omega)
              rw [show a + (i + 1) = a + 1 + i by omega] at this
              simpa using this
            rw [hr] at hd
            simp only [List.getElem?_cons_zero, Option.some.injEq] at h0
            cases hd
            rw [h0]

end Sys2Proof.Machine
end

