-- ==== Sys2Proof/Laws/Ops.lean ====
section
/-! SUPPORT. One lemma per shared operation that says everything it can do. -/

namespace Sys2Proof.Machine

open Sys2Proof.Config

/-! ### Accesses -/

/-- The access passes both checks of 20_memory.md R63 steps 1 and 2. -/
theorem checkAccess_ok_iff (s : State) (addr : Word) (n : Nat) :
    s.checkAccess addr n = .ok () ↔
      addr.toNat % n = 0 ∧ (∀ i < n, inRegions s.params.memMap (addr.toNat + i) = true) ∧
        addr.toNat + n ≤ 2 ^ 32 := by
  unfold State.checkAccess
  by_cases h1 : addr.toNat % n = 0
  · by_cases h2 : allInRegions s.params.memMap addr.toNat n && decide (addr.toNat + n ≤ 2 ^ 32)
    · have h3 := h2
      rw [Bool.and_eq_true, allInRegions_iff, decide_eq_true_iff] at h3
      rw [if_neg (not_not_intro h1), if_pos h2]
      exact ⟨fun _ => ⟨h1, h3⟩, fun _ => rfl⟩
    · have h3 := h2
      rw [Bool.and_eq_true, allInRegions_iff, decide_eq_true_iff] at h3
      simp only [h1, h2, ne_eq, not_true_eq_false, if_false, reduceCtorEq, false_iff]
      rintro ⟨-, h⟩
      exact h3 h
  · simp [h1]

/-- A misaligned access raises AddressMisaligned, whatever else holds (20_memory.md R68). -/
theorem checkAccess_misaligned {s : State} {addr : Word} {n : Nat} (h : addr.toNat % n ≠ 0) :
    s.checkAccess addr n = .error (.addressMisaligned addr n) := by
  simp [State.checkAccess, h]

/-- An aligned access that is not wholly mapped raises AccessFault (20_memory.md R70). -/
theorem checkAccess_unmapped {s : State} {addr : Word} {n : Nat} (h : addr.toNat % n = 0)
    (hm : ¬((∀ i < n, inRegions s.params.memMap (addr.toNat + i) = true) ∧ addr.toNat + n ≤ 2 ^ 32)) :
    s.checkAccess addr n = .error (.accessFault addr n) := by
  have : (allInRegions s.params.memMap addr.toNat n && decide (addr.toNat + n ≤ 2 ^ 32)) = false := by
    rw [Bool.eq_false_iff, ne_eq, Bool.and_eq_true, allInRegions_iff, decide_eq_true_iff]
    exact hm
  rw [State.checkAccess, if_neg (not_not_intro h), this]
  rfl

/-- checkAccess answers ok or one of its two faults. -/
theorem checkAccess_cases (s : State) (addr : Word) (n : Nat) :
    s.checkAccess addr n = .ok () ∨ s.checkAccess addr n = .error (.addressMisaligned addr n) ∨
      s.checkAccess addr n = .error (.accessFault addr n) := by
  unfold State.checkAccess
  split
  · exact .inr (.inl rfl)
  · split
    · exact .inl rfl
    · exact .inr (.inr rfl)

theorem memRead_ok_iff (s : State) (addr : Word) (n : Nat) (bs : List Byte) :
    s.memRead addr n = .ok bs ↔
      s.checkAccess addr n = .ok () ∧ bs.length = n ∧ ∀ i < n, s.readByte (addr.toNat + i) = bs[i]? := by
  unfold State.memRead
  cases h : s.checkAccess addr n with
  | ok u => simp only [true_and, readBytes_ok_iff]
  | error f => simp

theorem memWrite_ok_iff (s t : State) (addr : Word) (bs : List Byte) :
    s.memWrite addr bs = .ok t ↔
      s.checkAccess addr bs.length = .ok () ∧
        (∀ i < bs.length, inRegions s.params.text (addr.toNat + i) = false) ∧ t = s.writeBytes addr.toNat bs := by
  unfold State.memWrite
  cases h : s.checkAccess addr bs.length with
  | error f => simp
  | ok u =>
    have hs : someInRegions s.params.text addr.toNat bs.length = false ↔
        ∀ i < bs.length, inRegions s.params.text (addr.toNat + i) = false := by
      rw [Bool.eq_false_iff, ne_eq, someInRegions_iff]
      simp
    by_cases h2 : someInRegions s.params.text addr.toNat bs.length
    · have : ¬∀ i < bs.length, inRegions s.params.text (addr.toNat + i) = false := by
        rw [← hs]
        simp [h2]
      simp only [h2, if_true, reduceCtorEq, false_iff, true_and]
      exact fun ⟨h', _⟩ => this h'
    · have h3 : ∀ i < bs.length, inRegions s.params.text (addr.toNat + i) = false := by
        rw [← hs]
        simpa using h2
      simp only [h2, Bool.false_eq_true, if_false, Except.ok.injEq, true_and]
      exact ⟨fun e => ⟨h3, e.symm⟩, fun e => e.2.symm⟩

/-! ### Fetch -/

theorem fetch_ok_iff (s : State) (w : Word) :
    s.fetch = .ok w ↔
      s.pc.toNat % 4 = 0 ∧ (∀ i < 4, inRegions s.params.text (s.pc.toNat + i) = true) ∧
        ∃ bs : List Byte, bs.length = 4 ∧ (∀ i < 4, s.readByte (s.pc.toNat + i) = bs[i]?) ∧ w = beValue 32 bs := by
  unfold State.fetch
  by_cases h1 : s.pc.toNat % 4 = 0
  · by_cases h2 : allInRegions s.params.text s.pc.toNat 4
    · have h3 := (allInRegions_iff _ _ _).mp h2
      simp only [h1, ne_eq, not_true_eq_false, if_false, h2, if_true, true_and]
      cases hb : s.readBytes s.pc.toNat 4 with
      | error f =>
        simp only [reduceCtorEq, false_iff, not_and, not_exists]
        rintro - bs hl hr -
        have := (readBytes_ok_iff s s.pc.toNat 4 bs).mpr ⟨hl, hr⟩
        rw [hb] at this
        cases this
      | ok bs =>
        have hr := (readBytes_ok_iff s s.pc.toNat 4 bs).mp hb
        simp only [Except.ok.injEq]
        constructor
        · intro e
          exact ⟨h3, bs, hr.1, hr.2, e.symm⟩
        · rintro ⟨-, cs, hl, hc, e⟩
          have := (readBytes_ok_iff s s.pc.toNat 4 cs).mpr ⟨hl, hc⟩
          rw [hb] at this
          cases this
          exact e.symm
    · have h3 : ¬∀ i < 4, inRegions s.params.text (s.pc.toNat + i) = true := by
        rw [← allInRegions_iff]
        exact h2
      simp only [h1, ne_eq, not_true_eq_false, if_false, h2, Bool.false_eq_true, reduceCtorEq, false_iff]
      rintro ⟨-, h, -⟩
      exact h3 h
  · simp [h1]

theorem fetchInstr_ok_iff (s : State) (i : Instr) :
    s.fetchInstr = .ok i ↔ ∃ w, s.fetch = .ok w ∧ decodeWith s.params.enc w = .ok i := by
  unfold State.fetchInstr
  cases s.fetch with
  | error f => simp
  | ok w =>
    cases h : decodeWith s.params.enc w with
    | error e => simp [h]
    | ok j => simp [h]

/-! ### What instructions share -/

theorem load_next_iff (addr : Word) (n : Nat) (write : List Byte → State) (s t : State) :
    load addr n write s = .next t ↔ ∃ bs, s.memRead addr n = .ok bs ∧ t = (write bs).advance := by
  unfold load
  cases h : s.memRead addr n with
  | ok bs => simp [eq_comm]
  | error f => simp [raise]

theorem load_fault_iff (addr : Word) (n : Nat) (write : List Byte → State) (s : State) (f : Fault) :
    load addr n write s = .fault f ↔ s.memRead addr n = .error f := by
  unfold load
  cases h : s.memRead addr n with
  | ok bs => simp
  | error g => simp [raise]

theorem store_next_iff (addr : Word) (bs : List Byte) (s t : State) :
    store addr bs s = .next t ↔ ∃ u, s.memWrite addr bs = .ok u ∧ t = u.advance := by
  unfold store
  cases h : s.memWrite addr bs with
  | ok u => simp [eq_comm]
  | error f => simp [raise]

theorem store_fault_iff (addr : Word) (bs : List Byte) (s : State) (f : Fault) :
    store addr bs s = .fault f ↔ s.memWrite addr bs = .error f := by
  unfold store
  cases h : s.memWrite addr bs with
  | ok u => simp
  | error g => simp [raise]

theorem writeGprChecked_next_iff (rd : GReg) (v : Except Fault Word) (s t : State) :
    writeGprChecked rd v s = .next t ↔ ∃ w, v = .ok w ∧ t = (s.setGpr rd w).advance := by
  unfold writeGprChecked writeGpr
  cases v with
  | ok w => simp [eq_comm]
  | error f => simp [raise]

theorem writeGprChecked_fault_iff (rd : GReg) (v : Except Fault Word) (s : State) (f : Fault) :
    writeGprChecked rd v s = .fault f ↔ v = .error f := by
  unfold writeGprChecked writeGpr
  cases v with
  | ok w => simp
  | error g => simp [raise]

/-- `ovf_S` of an integer that fits is its 32-bit pattern (41_arithmetic.md R161). -/
theorem ovfS_of_fits {p : OvfPolicy} {i : Int} (h : fitsSigned i = true) : ovfS p i = .ok (trunc32 i) := by
  simp [ovfS, h]

/-- `ovf_S` of an integer that does not fit follows OVF_POLICY (41_arithmetic.md R161). -/
theorem ovfS_of_not_fits {p : OvfPolicy} {i : Int} (h : fitsSigned i = false) :
    ovfS p i = match p with | .fault => .error .integerOverflow | .wrap => .ok (trunc32 i) := by
  cases p <;> simp [ovfS, h]

/-- The only fault of `ovf_S` is IntegerOverflow. -/
theorem ovfS_error {p : OvfPolicy} {i : Int} {f : Fault} (h : ovfS p i = .error f) : f = .integerOverflow := by
  unfold ovfS at h
  split at h
  · cases h
  · cases p <;> simp_all

/-- What TRAP_HANDLER answers, where it answers (60_exceptions.md R327). -/
theorem hostTrap_some_iff (n : Nat) (s t : State) :
    hostTrap n s = some t ↔
      s.params.trapHandler = .host ∧ ∃ cs, trapHandler n s = some cs ∧ t = (s.applyHostAll cs).nextDraw := by
  unfold hostTrap
  cases h : s.params.trapHandler with
  | undefined => simp
  | host => simp [eq_comm]

/-- The host's changes leave the parameters of the run. -/
@[simp] theorem State.applyHostAll_params (s : State) (cs : List HostChange) :
    (s.applyHostAll cs).params = s.params := by
  unfold State.applyHostAll
  induction cs generalizing s with
  | nil => rfl
  | cons c cs ih =>
    rw [List.foldl_cons, ih]
    cases c <;> rfl

/-- The host's changes keep the canonical form of memory. -/
theorem applyHostAll_wf {s : State} (cs : List HostChange)
    (h : Memory.wf s.params.unwrittenRead s.mem = true) :
    Memory.wf s.params.unwrittenRead (s.applyHostAll cs).mem = true := by
  unfold State.applyHostAll
  induction cs generalizing s with
  | nil => exact h
  | cons c cs ih =>
    rw [List.foldl_cons]
    cases c with
    | memByte a v => exact ih (s := s.writeByte a.toNat v) (writeByte_wf v a.isLt h)
    | gpr r v => exact ih (s := s.setGpr r v) h
    | fpr r v => exact ih (s := s.setFpr r v) h
    | fpsrC c => exact ih (s := s.setFpsrC c) h
    | pc v => exact ih (s := s.jump v) h
    | status st => exact ih (s := s.setStatus st) h

/-- A write of R0's storage never happens: it keeps whatever it holds (10_state.md R31). -/
theorem setGpr_slot_zero (s : State) (r : GReg) (v : Word) : (s.setGpr r v).x[0] = s.x[0] := by
  unfold State.setGpr
  by_cases h : r = 0#5
  · simp [h]
  · have : r.toNat ≠ 0 := fun e => h (BitVec.eq_of_toNat_eq (by simpa using e))
    simp [h, this]

/-- The host's changes keep R0's storage. -/
theorem applyHostAll_slot_zero (s : State) (cs : List HostChange) : (s.applyHostAll cs).x[0] = s.x[0] := by
  unfold State.applyHostAll
  induction cs generalizing s with
  | nil => rfl
  | cons c cs ih =>
    rw [List.foldl_cons, ih]
    cases c <;> first | rfl | exact setGpr_slot_zero _ _ _

end Sys2Proof.Machine
end

