-- ==== Sys2Proof/Laws/Results.lean ====
section
/-! SUPPORT. What the shared endings of the instructions leave, in the terms of Safety.lean. -/

namespace Sys2Proof.Machine

open Sys2Proof.Config

/-- A written general register. -/
theorem gprResult_setGpr (rd : GReg) (v : Word) (s : State) : GprResult rd v s (s.setGpr rd v).advance where
  value := by simp [State.gpr_setGpr_self]
  others q h := by simp [State.gpr_setGpr_of_ne s v h]
  fprs _ := rfl
  fpsrC := rfl
  pc := rfl
  memory _ := rfl
  rest := ⟨rfl, rfl, rfl⟩

/-- A written floating-point register. -/
theorem fprResult_setFpr (rd : FReg) (v : Word) (s : State) : FprResult rd v s (s.setFpr rd v).advance where
  value := by simp
  others q h := by simp [State.fpr_setFpr_of_ne s v h]
  gprs _ := rfl
  fpsrC := rfl
  pc := rfl
  memory _ := rfl
  status := rfl
  params := rfl

/-- A written floating-point register after a draw. -/
theorem fprResult_setFpr_draw (rd : FReg) (v : Word) (s : State) :
    FprResult rd v s (s.nextDraw.setFpr rd v).advance :=
  { fprResult_setFpr rd v s.nextDraw with }

/-- A written pair. -/
theorem dblResult_setDbl (rd : DReg) (v : DWord) (s : State) : DblResult rd v s (s.setDbl rd v).advance where
  high := by simp [State.fpr_setDbl]
  low := by simp [State.fpr_setDbl]
  others q h h' := by simp [State.fpr_setDbl, h, h']
  gprs _ := rfl
  fpsrC := rfl
  pc := rfl
  memory _ := rfl
  status := rfl
  params := rfl

/-- A written pair after a draw. -/
theorem dblResult_setDbl_draw (rd : DReg) (v : DWord) (s : State) :
    DblResult rd v s (s.nextDraw.setDbl rd v).advance :=
  { dblResult_setDbl rd v s.nextDraw with }

/-- The two words of a written pair give its value back. -/
theorem DblResult.pair {rd : DReg} {v : DWord} {s t : State} (h : DblResult rd v s t) :
    (t.fpr rd ++ t.fpr (rd + 1#5) : DWord) = v := by
  rw [h.high, h.low]
  exact append_halves v

/-- A jump. -/
theorem jumpResult_jump (target : Word) (s : State) : JumpResult target s (s.jump target) :=
  ⟨rfl, fun _ => rfl, fun _ => rfl, rfl, fun _ => rfl, ⟨rfl, rfl, rfl⟩⟩

/-- A compare. -/
theorem compareResult_setFpsrC (c : Bool) (s : State) : CompareResult c s (s.setFpsrC c).advance :=
  ⟨rfl, fun _ => rfl, fun _ => rfl, rfl, fun _ => rfl, ⟨rfl, rfl, rfl⟩⟩

/-- A jump that links. -/
theorem linkResult_jump (target : Word) (s : State) :
    LinkResult target s ((s.setGpr linkReg (linkValue s)).jump target) where
  pc := rfl
  link := by simp [linkReg, State.gpr_setGpr_self, linkValue]
  others q h := by simp [linkReg, State.gpr_setGpr_of_ne s _ h]
  fprs _ := rfl
  fpsrC := rfl
  memory _ := rfl
  rest := ⟨rfl, rfl, rfl⟩

/-- Written bytes, in a canonical memory. -/
theorem storeResult_writeBytes {s : State} (h : Memory.wf s.params.unwrittenRead s.mem = true) (a : Nat)
    (bs : List Byte) : StoreResult a bs s (s.writeBytes a bs).advance where
  stored k hk := by
    have hr : a ≤ a + k ∧ a + k < a + bs.length := by omega
    rw [State.advance_readByte, readByte_writeBytes (Memory.wf_rising h), if_pos hr, Nat.add_sub_cancel_left]
  outside b hb := by rw [State.advance_readByte, readByte_writeBytes (Memory.wf_rising h), if_neg hb]
  gprs _ := by simp
  fprs _ := by simp
  fpsrC := by simp
  pc := by simp
  rest := ⟨by simp, by simp, by simp⟩

/-! ### Accesses in the terms of Safety.lean -/

/-- An aligned access of 1, 2, 4 or 8 bytes does not pass the top of the address space (20_memory.md R70). -/
theorem aligned_end {addr : Word} {n : Nat} (hn : n = 1 ∨ n = 2 ∨ n = 4 ∨ n = 8) (h : addr.toNat % n = 0) :
    addr.toNat + n ≤ 2 ^ 32 := by
  have := addr.isLt
  rcases hn with rfl | rfl | rfl | rfl <;> omega

theorem checkAccess_ok {s : State} {addr : Word} {n : Nat} (hn : n = 1 ∨ n = 2 ∨ n = 4 ∨ n = 8)
    (h : addr.toNat % n = 0) (hm : Mapped s addr n) : s.checkAccess addr n = .ok () :=
  (checkAccess_ok_iff s addr n).mpr ⟨h, hm, aligned_end hn h⟩

/-- MemRead of loadable bytes (20_memory.md R63). -/
theorem memRead_of_loadable {s : State} {addr : Word} {bs : List Byte}
    (hn : bs.length = 1 ∨ bs.length = 2 ∨ bs.length = 4 ∨ bs.length = 8) (h : Loadable s addr bs) :
    s.memRead addr bs.length = .ok bs :=
  (memRead_ok_iff s addr bs.length bs).mpr ⟨checkAccess_ok hn h.aligned h.mapped, rfl, h.bytes⟩

/-- MemWrite to storable bytes (20_memory.md R64). -/
theorem memWrite_of_storable {s : State} {addr : Word} {bs : List Byte}
    (hn : bs.length = 1 ∨ bs.length = 2 ∨ bs.length = 4 ∨ bs.length = 8) (h : Storable s addr bs.length) :
    s.memWrite addr bs = .ok (s.writeBytes addr.toNat bs) :=
  (memWrite_ok_iff s _ addr bs).mpr ⟨checkAccess_ok hn h.aligned h.mapped, h.outsideText, rfl⟩

end Sys2Proof.Machine
end

