-- ==== Sys2Proof/Laws/Exec.lean ====
section
/-! SUPPORT. Everything an instruction can do to the state where it answers a next state, once: `exec_effect`. -/

namespace Sys2Proof.Machine

open Sys2Proof.Config

/-- What an instruction makes of a state, by the kind of its destination. -/
inductive Effect (i : Instr) (s : State) : State → Prop where
  /-- a general register -/
  | gpr (rd : GReg) (v : Word) (h : gprDest i = some rd) : Effect i s (s.setGpr rd v).advance
  /-- a floating-point register -/
  | fpr (rd : FReg) (v : Word) (h : fprDests i = [rd]) : Effect i s (s.setFpr rd v).advance
  /-- a floating-point register, by a draw -/
  | fprDraw (rd : FReg) (v : Word) (h : fprDests i = [rd]) : Effect i s (s.nextDraw.setFpr rd v).advance
  /-- a pair -/
  | dbl (rd : DReg) (v : DWord) (h : fprDests i = [rd, rd + 1#5]) : Effect i s (s.setDbl rd v).advance
  /-- a pair, by a draw -/
  | dblDraw (rd : DReg) (v : DWord) (h : fprDests i = [rd, rd + 1#5]) : Effect i s (s.nextDraw.setDbl rd v).advance
  /-- fpsr.c -/
  | compare (c : Bool) (h : isCompare i = true) : Effect i s (s.setFpsrC c).advance
  /-- memory -/
  | store (rs1 : GReg) (imm16 : Imm16) (bs : List Byte) (u : State)
      (h : storeAccess i = some (rs1, imm16, bs.length))
      (hw : s.memWrite (effectiveAddress s rs1 imm16) bs = .ok u) : Effect i s u.advance
  /-- the pc alone: branches, J, JR, NOP -/
  | jump (target : Word) (hg : gprDest i = none) : Effect i s (s.jump target)
  /-- the pc and R31 -/
  | link (target : Word) (h : gprDest i = some linkReg) :
      Effect i s ((s.setGpr linkReg (linkValue s)).jump target)
  /-- the run status, by TRAP 0 -/
  | final (h : i = .trap 0#26) : Effect i s (s.setStatus .final)
  /-- what the host's trap function makes of it -/
  | host (cs : List HostChange) (h : isTrap i = true) (hp : s.params.trapHandler = .host) :
      Effect i s (s.advance.applyHostAll cs).nextDraw

variable {i : Instr} {s t : State}

theorem Effect.of_writeGpr {rd : GReg} {v : Word} (hd : gprDest i = some rd) (h : writeGpr rd v s = .next t) :
    Effect i s t := by
  cases h
  exact .gpr rd v hd

theorem Effect.of_writeGprChecked {rd : GReg} {v : Except Fault Word} (hd : gprDest i = some rd)
    (h : writeGprChecked rd v s = .next t) : Effect i s t := by
  obtain ⟨w, -, rfl⟩ := (writeGprChecked_next_iff ..).mp h
  exact .gpr rd w hd

theorem Effect.of_writeFpr {rd : FReg} {v : Word} (hd : fprDests i = [rd]) (h : writeFpr rd v s = .next t) :
    Effect i s t := by
  cases h
  exact .fpr rd v hd

theorem Effect.of_writeDbl {rd : DReg} {v : DWord} (hd : fprDests i = [rd, rd + 1#5])
    (h : writeDbl rd v s = .next t) : Effect i s t := by
  cases h
  exact .dbl rd v hd

theorem Effect.of_writeFprOrNan {rd : FReg} {v : Option Word} (hd : fprDests i = [rd])
    (h : writeFprOrNan rd v s = .next t) : Effect i s t := by
  cases v <;> cases h
  · exact .fprDraw rd _ hd
  · exact .fpr rd _ hd

theorem Effect.of_writeFprOrDraw {rd : FReg} {v : Option Word} (hd : fprDests i = [rd])
    (h : writeFprOrDraw rd v s = .next t) : Effect i s t := by
  cases v <;> cases h
  · exact .fprDraw rd _ hd
  · exact .fpr rd _ hd

theorem Effect.of_writeDblOrNan {rd : DReg} {v : Option DWord} (hd : fprDests i = [rd, rd + 1#5])
    (h : writeDblOrNan rd v s = .next t) : Effect i s t := by
  cases v <;> cases h
  · exact .dblDraw rd _ hd
  · exact .dbl rd _ hd

theorem Effect.of_writeCompare {c : Bool} (hd : isCompare i = true) (h : writeCompare c s = .next t) :
    Effect i s t := by
  cases h
  exact .compare c hd

theorem Effect.of_loadGpr {addr : Word} {n : Nat} {rd : GReg} {v : List Byte → Word} (hd : gprDest i = some rd)
    (h : load addr n (fun bs => s.setGpr rd (v bs)) s = .next t) : Effect i s t := by
  obtain ⟨bs, -, rfl⟩ := (load_next_iff ..).mp h
  exact .gpr rd (v bs) hd

theorem Effect.of_loadFpr {addr : Word} {n : Nat} {rd : FReg} {v : List Byte → Word} (hd : fprDests i = [rd])
    (h : load addr n (fun bs => s.setFpr rd (v bs)) s = .next t) : Effect i s t := by
  obtain ⟨bs, -, rfl⟩ := (load_next_iff ..).mp h
  exact .fpr rd (v bs) hd

theorem Effect.of_loadDbl {addr : Word} {n : Nat} {rd : DReg} {v : List Byte → DWord}
    (hd : fprDests i = [rd, rd + 1#5]) (h : load addr n (fun bs => s.setDbl rd (v bs)) s = .next t) :
    Effect i s t := by
  obtain ⟨bs, -, rfl⟩ := (load_next_iff ..).mp h
  exact .dbl rd (v bs) hd

theorem Effect.of_store {rs1 : GReg} {imm16 : Imm16} {bs : List Byte}
    (hd : storeAccess i = some (rs1, imm16, bs.length))
    (h : Machine.store (effectiveAddress s rs1 imm16) bs s = .next t) : Effect i s t := by
  obtain ⟨u, hu, rfl⟩ := (store_next_iff ..).mp h
  exact .store rs1 imm16 bs u hd hu

theorem Effect.of_branch {taken : Bool} {target : Word} (hd : gprDest i = none)
    (h : branch taken target s = .next t) : Effect i s t := by
  cases taken <;> cases h
  · exact .jump (s.pc + 4#32) hd
  · exact .jump target hd

theorem Effect.of_division {c : Prop} [Decidable c] {r : Result} (hr : r = .next t → Effect i s t)
    (h : (if c then raise .divideByZero else r) = .next t) : Effect i s t := by
  split at h
  · cases h
  · exact hr h

theorem Effect.of_trap {off26 : Off26} (h : execTrap off26 s = .next t) : Effect (.trap off26) s t := by
  unfold execTrap at h
  split at h
  · rename_i h0
    cases h
    have : off26 = 0#26 := BitVec.eq_of_toNat_eq h0
    exact .final (congrArg Instr.trap this)
  · split at h
    · rename_i u hu
      cases h
      obtain ⟨hp, cs, -, rfl⟩ := (hostTrap_some_iff ..).mp hu
      exact .host cs rfl hp
    · cases h

/-- Everything an instruction can do where it answers a next state. -/
theorem exec_effect (h : exec i s = .next t) : Effect i s t := by
  cases i
  case lb => exact .of_loadGpr rfl h
  case lbu => exact .of_loadGpr rfl h
  case lh => exact .of_loadGpr rfl h
  case lhu => exact .of_loadGpr rfl h
  case lw => exact .of_loadGpr rfl h
  case lf => exact .of_loadFpr rfl h
  case ld => exact .of_loadDbl rfl h
  case sb => exact .of_store rfl h
  case sh => exact .of_store rfl h
  case sw => exact .of_store rfl h
  case sf => exact .of_store rfl h
  case sd => exact .of_store rfl h
  case movi2fp => exact .of_writeFpr rfl h
  case movfp2i => exact .of_writeGpr rfl h
  case movf => exact .of_writeFpr rfl h
  case movd => exact .of_writeDbl rfl h
  case movi2s => cases h
  case movs2i => cases h
  case div => exact .of_division (.of_writeGprChecked rfl) h
  case divu => exact .of_division (.of_writeGpr rfl) h
  case nop => exact .of_branch (taken := false) (target := 0#32) rfl h
  case beqz => exact .of_branch rfl h
  case bnez => exact .of_branch rfl h
  case bfpt => exact .of_branch rfl h
  case bfpf => exact .of_branch rfl h
  case j => exact .of_branch (taken := true) rfl h
  case jr => exact .of_branch (taken := true) rfl h
  case jal => cases h; exact .link _ rfl
  case jalr => cases h; exact .link _ rfl
  case trap => exact .of_trap h
  case rfe => cases h
  case cvti2f => exact .of_writeFpr rfl h
  case cvti2d => exact .of_writeDbl rfl h
  case cvtf2i => exact .of_writeFprOrDraw rfl h
  case cvtd2i => exact .of_writeFprOrDraw rfl h
  all_goals
    first
    | exact .of_writeGprChecked rfl h
    | exact .of_writeGpr rfl h
    | exact .of_writeFprOrNan rfl h
    | exact .of_writeDblOrNan rfl h
    | exact .of_writeCompare rfl h

end Sys2Proof.Machine
end

