-- ==== Sys2Proof/Laws/PerInstr.lean ====
section
/-! SUPPORT. Statements made per instruction: the word of every well-formed instruction is its own row's
(30_encoding.md R104). -/

namespace Sys2Proof

/-! ### Masked fields of a packed word -/

theorem packR_row {op : BitVec 6} {f : BitVec 11} {a b c na nb nc : BitVec 5} (ha : a &&& na = 0#5)
    (hb : b &&& nb = 0#5) (hc : c &&& nc = 0#5) :
    packR op a b c f &&& packR 0x3F#6 na nb nc 0x7FF#11 = packR op 0#5 0#5 0#5 f := by
  have hop : op &&& 0x3F#6 = op := by revert op; decide
  have hf : f &&& 0x7FF#11 = f := BitVec.and_allOnes (x := f)
  have h : (op ++ a ++ b ++ c ++ f : BitVec (6 + 5 + 5 + 5 + 11)) &&& (0x3F#6 ++ na ++ nb ++ nc ++ 0x7FF#11) =
      op ++ 0#5 ++ 0#5 ++ 0#5 ++ f := by
    rw [BitVec.and_append, BitVec.and_append, BitVec.and_append, BitVec.and_append, ha, hb, hc, hop, hf]
  exact h

theorem packI_row {op : BitVec 6} {a b na nb : BitVec 5} {i ni : Imm16} (ha : a &&& na = 0#5)
    (hb : b &&& nb = 0#5) (hi : i &&& ni = 0#16) :
    packI op a b i &&& packI 0x3F#6 na nb ni = packI op 0#5 0#5 0#16 := by
  have hop : op &&& 0x3F#6 = op := by revert op; decide
  have h : (op ++ a ++ b ++ i : BitVec (6 + 5 + 5 + 16)) &&& (0x3F#6 ++ na ++ nb ++ ni) =
      op ++ 0#5 ++ 0#5 ++ 0#16 := by
    rw [BitVec.and_append, BitVec.and_append, BitVec.and_append, ha, hb, hi, hop]
  exact h

theorem packJ_row {op : BitVec 6} {o : Off26} : packJ op o &&& packJ 0x3F#6 0#26 = packJ op 0#26 := by
  have hop : op &&& 0x3F#6 = op := by revert op; decide
  have h : (op ++ o : BitVec (6 + 26)) &&& (0x3F#6 ++ 0#26) = op ++ 0#26 := by
    rw [BitVec.and_append, BitVec.and_zero, hop]
  exact h

/-- A field no mask covers. -/
theorem free {k : Nat} (a : BitVec k) : a &&& 0#k = 0#k := BitVec.and_zero

/-- An unused field, all of it masked (30_encoding.md R103). -/
theorem unused {k : Nat} (n : BitVec k) : 0#k &&& n = 0#k := BitVec.zero_and

/-- The masked low bit of a pair's number. -/
theorem pair_bit {r : DReg} (h : isPair r = true) : r &&& 1#5 = 0#5 := by
  revert r
  decide

/-! ### The row of an instruction -/

/-- The word of the instruction, where it is well-formed, is its row's of the opcode table. -/
def Laws.TableRow.Statement (i : Instr) : Prop :=
  i.wellFormed = true → ∃ r ∈ opcodeRows, r.mnemonic = i.mnemonic ∧ encode i &&& r.mask = r.bits

theorem pairs2 {p q : Bool} (h : (p && q) = true) : p = true ∧ q = true := by simpa using h

theorem pairs3 {p q r : Bool} (h : (p && q && r) = true) : p = true ∧ q = true ∧ r = true := by
  simpa [and_assoc] using h

theorem Laws.TableRow.lb (rd : GReg) (rs1 : GReg) (imm16 : Imm16) :
    Laws.TableRow.Statement (.lb rd rs1 imm16) :=
  fun _ => ⟨⟨"LB", 0xFC000000, 0x80000000⟩, List.mem_of_getElem? (i := 0) rfl, rfl, packI_row (free _) (free _) (free _)⟩

theorem Laws.TableRow.lbu (rd : GReg) (rs1 : GReg) (imm16 : Imm16) :
    Laws.TableRow.Statement (.lbu rd rs1 imm16) :=
  fun _ => ⟨⟨"LBU", 0xFC000000, 0x90000000⟩, List.mem_of_getElem? (i := 1) rfl, rfl, packI_row (free _) (free _) (free _)⟩

theorem Laws.TableRow.lh (rd : GReg) (rs1 : GReg) (imm16 : Imm16) :
    Laws.TableRow.Statement (.lh rd rs1 imm16) :=
  fun _ => ⟨⟨"LH", 0xFC000000, 0x84000000⟩, List.mem_of_getElem? (i := 2) rfl, rfl, packI_row (free _) (free _) (free _)⟩

theorem Laws.TableRow.lhu (rd : GReg) (rs1 : GReg) (imm16 : Imm16) :
    Laws.TableRow.Statement (.lhu rd rs1 imm16) :=
  fun _ => ⟨⟨"LHU", 0xFC000000, 0x94000000⟩, List.mem_of_getElem? (i := 3) rfl, rfl, packI_row (free _) (free _) (free _)⟩

theorem Laws.TableRow.lw (rd : GReg) (rs1 : GReg) (imm16 : Imm16) :
    Laws.TableRow.Statement (.lw rd rs1 imm16) :=
  fun _ => ⟨⟨"LW", 0xFC000000, 0x8C000000⟩, List.mem_of_getElem? (i := 4) rfl, rfl, packI_row (free _) (free _) (free _)⟩

theorem Laws.TableRow.lf (rd : FReg) (rs1 : GReg) (imm16 : Imm16) :
    Laws.TableRow.Statement (.lf rd rs1 imm16) :=
  fun _ => ⟨⟨"LF", 0xFC000000, 0x98000000⟩, List.mem_of_getElem? (i := 5) rfl, rfl, packI_row (free _) (free _) (free _)⟩

theorem Laws.TableRow.ld (rd : DReg) (rs1 : GReg) (imm16 : Imm16) :
    Laws.TableRow.Statement (.ld rd rs1 imm16) :=
  fun h => ⟨⟨"LD", 0xFC010000, 0x9C000000⟩, List.mem_of_getElem? (i := 6) rfl, rfl, packI_row (free _) (pair_bit h) (free _)⟩

theorem Laws.TableRow.sb (rs1 : GReg) (imm16 : Imm16) (rd : GReg) :
    Laws.TableRow.Statement (.sb rs1 imm16 rd) :=
  fun _ => ⟨⟨"SB", 0xFC000000, 0xA0000000⟩, List.mem_of_getElem? (i := 7) rfl, rfl, packI_row (free _) (free _) (free _)⟩

theorem Laws.TableRow.sh (rs1 : GReg) (imm16 : Imm16) (rd : GReg) :
    Laws.TableRow.Statement (.sh rs1 imm16 rd) :=
  fun _ => ⟨⟨"SH", 0xFC000000, 0xA4000000⟩, List.mem_of_getElem? (i := 8) rfl, rfl, packI_row (free _) (free _) (free _)⟩

theorem Laws.TableRow.sw (rs1 : GReg) (imm16 : Imm16) (rd : GReg) :
    Laws.TableRow.Statement (.sw rs1 imm16 rd) :=
  fun _ => ⟨⟨"SW", 0xFC000000, 0xAC000000⟩, List.mem_of_getElem? (i := 9) rfl, rfl, packI_row (free _) (free _) (free _)⟩

theorem Laws.TableRow.sf (rs1 : GReg) (imm16 : Imm16) (rd : FReg) :
    Laws.TableRow.Statement (.sf rs1 imm16 rd) :=
  fun _ => ⟨⟨"SF", 0xFC000000, 0xB8000000⟩, List.mem_of_getElem? (i := 10) rfl, rfl, packI_row (free _) (free _) (free _)⟩

theorem Laws.TableRow.sd (rs1 : GReg) (imm16 : Imm16) (rd : DReg) :
    Laws.TableRow.Statement (.sd rs1 imm16 rd) :=
  fun h => ⟨⟨"SD", 0xFC010000, 0xBC000000⟩, List.mem_of_getElem? (i := 11) rfl, rfl, packI_row (free _) (pair_bit h) (free _)⟩

theorem Laws.TableRow.movi2fp (rd : FReg) (rs1 : GReg) :
    Laws.TableRow.Statement (.movi2fp rd rs1) :=
  fun _ => ⟨⟨"MOVI2FP", 0xFC1F07FF, 0x00000035⟩, List.mem_of_getElem? (i := 12) rfl, rfl, packR_row (free _) (unused 0x1F#5) (free _)⟩

theorem Laws.TableRow.movfp2i (rd : GReg) (rs1 : FReg) :
    Laws.TableRow.Statement (.movfp2i rd rs1) :=
  fun _ => ⟨⟨"MOVFP2I", 0xFC1F07FF, 0x00000034⟩, List.mem_of_getElem? (i := 13) rfl, rfl, packR_row (free _) (unused 0x1F#5) (free _)⟩

theorem Laws.TableRow.movf (rd : FReg) (rs1 : FReg) :
    Laws.TableRow.Statement (.movf rd rs1) :=
  fun _ => ⟨⟨"MOVF", 0xFC1F07FF, 0x00000032⟩, List.mem_of_getElem? (i := 14) rfl, rfl, packR_row (free _) (unused 0x1F#5) (free _)⟩

theorem Laws.TableRow.movd (rd : DReg) (rs1 : DReg) :
    Laws.TableRow.Statement (.movd rd rs1) :=
  fun h => ⟨⟨"MOVD", 0xFC3F0FFF, 0x00000033⟩, List.mem_of_getElem? (i := 15) rfl, rfl, packR_row (pair_bit (pairs2 h).2) (unused 0x1F#5) (pair_bit (pairs2 h).1)⟩

theorem Laws.TableRow.movi2s (rd : SReg) (rs1 : GReg) :
    Laws.TableRow.Statement (.movi2s rd rs1) :=
  fun _ => ⟨⟨"MOVI2S", 0xFC1F07FF, 0x00000030⟩, List.mem_of_getElem? (i := 16) rfl, rfl, packR_row (free _) (unused 0x1F#5) (free _)⟩

theorem Laws.TableRow.movs2i (rd : GReg) (rs1 : SReg) :
    Laws.TableRow.Statement (.movs2i rd rs1) :=
  fun _ => ⟨⟨"MOVS2I", 0xFC1F07FF, 0x00000031⟩, List.mem_of_getElem? (i := 17) rfl, rfl, packR_row (free _) (unused 0x1F#5) (free _)⟩

theorem Laws.TableRow.add (rd : GReg) (rs1 : GReg) (rs2 : GReg) :
    Laws.TableRow.Statement (.add rd rs1 rs2) :=
  fun _ => ⟨⟨"ADD", 0xFC0007FF, 0x00000020⟩, List.mem_of_getElem? (i := 18) rfl, rfl, packR_row (free _) (free _) (free _)⟩

theorem Laws.TableRow.addi (rd : GReg) (rs1 : GReg) (imm16 : Imm16) :
    Laws.TableRow.Statement (.addi rd rs1 imm16) :=
  fun _ => ⟨⟨"ADDI", 0xFC000000, 0x20000000⟩, List.mem_of_getElem? (i := 19) rfl, rfl, packI_row (free _) (free _) (free _)⟩

theorem Laws.TableRow.addu (rd : GReg) (rs1 : GReg) (rs2 : GReg) :
    Laws.TableRow.Statement (.addu rd rs1 rs2) :=
  fun _ => ⟨⟨"ADDU", 0xFC0007FF, 0x00000021⟩, List.mem_of_getElem? (i := 20) rfl, rfl, packR_row (free _) (free _) (free _)⟩

theorem Laws.TableRow.addui (rd : GReg) (rs1 : GReg) (imm16 : Imm16) :
    Laws.TableRow.Statement (.addui rd rs1 imm16) :=
  fun _ => ⟨⟨"ADDUI", 0xFC000000, 0x24000000⟩, List.mem_of_getElem? (i := 21) rfl, rfl, packI_row (free _) (free _) (free _)⟩

theorem Laws.TableRow.sub (rd : GReg) (rs1 : GReg) (rs2 : GReg) :
    Laws.TableRow.Statement (.sub rd rs1 rs2) :=
  fun _ => ⟨⟨"SUB", 0xFC0007FF, 0x00000022⟩, List.mem_of_getElem? (i := 22) rfl, rfl, packR_row (free _) (free _) (free _)⟩

theorem Laws.TableRow.subi (rd : GReg) (rs1 : GReg) (imm16 : Imm16) :
    Laws.TableRow.Statement (.subi rd rs1 imm16) :=
  fun _ => ⟨⟨"SUBI", 0xFC000000, 0x28000000⟩, List.mem_of_getElem? (i := 23) rfl, rfl, packI_row (free _) (free _) (free _)⟩

theorem Laws.TableRow.subu (rd : GReg) (rs1 : GReg) (rs2 : GReg) :
    Laws.TableRow.Statement (.subu rd rs1 rs2) :=
  fun _ => ⟨⟨"SUBU", 0xFC0007FF, 0x00000023⟩, List.mem_of_getElem? (i := 24) rfl, rfl, packR_row (free _) (free _) (free _)⟩

theorem Laws.TableRow.subui (rd : GReg) (rs1 : GReg) (imm16 : Imm16) :
    Laws.TableRow.Statement (.subui rd rs1 imm16) :=
  fun _ => ⟨⟨"SUBUI", 0xFC000000, 0x2C000000⟩, List.mem_of_getElem? (i := 25) rfl, rfl, packI_row (free _) (free _) (free _)⟩

theorem Laws.TableRow.mult (rd : GReg) (rs1 : GReg) (rs2 : GReg) :
    Laws.TableRow.Statement (.mult rd rs1 rs2) :=
  fun _ => ⟨⟨"MULT", 0xFC0007FF, 0x0400000E⟩, List.mem_of_getElem? (i := 26) rfl, rfl, packR_row (free _) (free _) (free _)⟩

theorem Laws.TableRow.multu (rd : GReg) (rs1 : GReg) (rs2 : GReg) :
    Laws.TableRow.Statement (.multu rd rs1 rs2) :=
  fun _ => ⟨⟨"MULTU", 0xFC0007FF, 0x04000016⟩, List.mem_of_getElem? (i := 27) rfl, rfl, packR_row (free _) (free _) (free _)⟩

theorem Laws.TableRow.div (rd : GReg) (rs1 : GReg) (rs2 : GReg) :
    Laws.TableRow.Statement (.div rd rs1 rs2) :=
  fun _ => ⟨⟨"DIV", 0xFC0007FF, 0x0400000F⟩, List.mem_of_getElem? (i := 28) rfl, rfl, packR_row (free _) (free _) (free _)⟩

theorem Laws.TableRow.divu (rd : GReg) (rs1 : GReg) (rs2 : GReg) :
    Laws.TableRow.Statement (.divu rd rs1 rs2) :=
  fun _ => ⟨⟨"DIVU", 0xFC0007FF, 0x04000017⟩, List.mem_of_getElem? (i := 29) rfl, rfl, packR_row (free _) (free _) (free _)⟩

theorem Laws.TableRow.and (rd : GReg) (rs1 : GReg) (rs2 : GReg) :
    Laws.TableRow.Statement (.and rd rs1 rs2) :=
  fun _ => ⟨⟨"AND", 0xFC0007FF, 0x00000024⟩, List.mem_of_getElem? (i := 30) rfl, rfl, packR_row (free _) (free _) (free _)⟩

theorem Laws.TableRow.andi (rd : GReg) (rs1 : GReg) (imm16 : Imm16) :
    Laws.TableRow.Statement (.andi rd rs1 imm16) :=
  fun _ => ⟨⟨"ANDI", 0xFC000000, 0x30000000⟩, List.mem_of_getElem? (i := 31) rfl, rfl, packI_row (free _) (free _) (free _)⟩

theorem Laws.TableRow.or (rd : GReg) (rs1 : GReg) (rs2 : GReg) :
    Laws.TableRow.Statement (.or rd rs1 rs2) :=
  fun _ => ⟨⟨"OR", 0xFC0007FF, 0x00000025⟩, List.mem_of_getElem? (i := 32) rfl, rfl, packR_row (free _) (free _) (free _)⟩

theorem Laws.TableRow.ori (rd : GReg) (rs1 : GReg) (imm16 : Imm16) :
    Laws.TableRow.Statement (.ori rd rs1 imm16) :=
  fun _ => ⟨⟨"ORI", 0xFC000000, 0x34000000⟩, List.mem_of_getElem? (i := 33) rfl, rfl, packI_row (free _) (free _) (free _)⟩

theorem Laws.TableRow.xor (rd : GReg) (rs1 : GReg) (rs2 : GReg) :
    Laws.TableRow.Statement (.xor rd rs1 rs2) :=
  fun _ => ⟨⟨"XOR", 0xFC0007FF, 0x00000026⟩, List.mem_of_getElem? (i := 34) rfl, rfl, packR_row (free _) (free _) (free _)⟩

theorem Laws.TableRow.xori (rd : GReg) (rs1 : GReg) (imm16 : Imm16) :
    Laws.TableRow.Statement (.xori rd rs1 imm16) :=
  fun _ => ⟨⟨"XORI", 0xFC000000, 0x38000000⟩, List.mem_of_getElem? (i := 35) rfl, rfl, packI_row (free _) (free _) (free _)⟩

theorem Laws.TableRow.lhi (rd : GReg) (imm16 : Imm16) :
    Laws.TableRow.Statement (.lhi rd imm16) :=
  fun _ => ⟨⟨"LHI", 0xFFE00000, 0x3C000000⟩, List.mem_of_getElem? (i := 36) rfl, rfl, packI_row (unused 0x1F#5) (free _) (free _)⟩

theorem Laws.TableRow.sll (rd : GReg) (rs1 : GReg) (rs2 : GReg) :
    Laws.TableRow.Statement (.sll rd rs1 rs2) :=
  fun _ => ⟨⟨"SLL", 0xFC0007FF, 0x00000004⟩, List.mem_of_getElem? (i := 37) rfl, rfl, packR_row (free _) (free _) (free _)⟩

theorem Laws.TableRow.srl (rd : GReg) (rs1 : GReg) (rs2 : GReg) :
    Laws.TableRow.Statement (.srl rd rs1 rs2) :=
  fun _ => ⟨⟨"SRL", 0xFC0007FF, 0x00000006⟩, List.mem_of_getElem? (i := 38) rfl, rfl, packR_row (free _) (free _) (free _)⟩

theorem Laws.TableRow.sra (rd : GReg) (rs1 : GReg) (rs2 : GReg) :
    Laws.TableRow.Statement (.sra rd rs1 rs2) :=
  fun _ => ⟨⟨"SRA", 0xFC0007FF, 0x00000007⟩, List.mem_of_getElem? (i := 39) rfl, rfl, packR_row (free _) (free _) (free _)⟩

theorem Laws.TableRow.slli (rd : GReg) (rs1 : GReg) (imm16 : Imm16) :
    Laws.TableRow.Statement (.slli rd rs1 imm16) :=
  fun _ => ⟨⟨"SLLI", 0xFC000000, 0x50000000⟩, List.mem_of_getElem? (i := 40) rfl, rfl, packI_row (free _) (free _) (free _)⟩

theorem Laws.TableRow.srli (rd : GReg) (rs1 : GReg) (imm16 : Imm16) :
    Laws.TableRow.Statement (.srli rd rs1 imm16) :=
  fun _ => ⟨⟨"SRLI", 0xFC000000, 0x58000000⟩, List.mem_of_getElem? (i := 41) rfl, rfl, packI_row (free _) (free _) (free _)⟩

theorem Laws.TableRow.srai (rd : GReg) (rs1 : GReg) (imm16 : Imm16) :
    Laws.TableRow.Statement (.srai rd rs1 imm16) :=
  fun _ => ⟨⟨"SRAI", 0xFC000000, 0x5C000000⟩, List.mem_of_getElem? (i := 42) rfl, rfl, packI_row (free _) (free _) (free _)⟩

theorem Laws.TableRow.seq (rd : GReg) (rs1 : GReg) (rs2 : GReg) :
    Laws.TableRow.Statement (.seq rd rs1 rs2) :=
  fun _ => ⟨⟨"SEQ", 0xFC0007FF, 0x00000028⟩, List.mem_of_getElem? (i := 43) rfl, rfl, packR_row (free _) (free _) (free _)⟩

theorem Laws.TableRow.sne (rd : GReg) (rs1 : GReg) (rs2 : GReg) :
    Laws.TableRow.Statement (.sne rd rs1 rs2) :=
  fun _ => ⟨⟨"SNE", 0xFC0007FF, 0x00000029⟩, List.mem_of_getElem? (i := 44) rfl, rfl, packR_row (free _) (free _) (free _)⟩

theorem Laws.TableRow.slt (rd : GReg) (rs1 : GReg) (rs2 : GReg) :
    Laws.TableRow.Statement (.slt rd rs1 rs2) :=
  fun _ => ⟨⟨"SLT", 0xFC0007FF, 0x0000002A⟩, List.mem_of_getElem? (i := 45) rfl, rfl, packR_row (free _) (free _) (free _)⟩

theorem Laws.TableRow.sgt (rd : GReg) (rs1 : GReg) (rs2 : GReg) :
    Laws.TableRow.Statement (.sgt rd rs1 rs2) :=
  fun _ => ⟨⟨"SGT", 0xFC0007FF, 0x0000002B⟩, List.mem_of_getElem? (i := 46) rfl, rfl, packR_row (free _) (free _) (free _)⟩

theorem Laws.TableRow.sle (rd : GReg) (rs1 : GReg) (rs2 : GReg) :
    Laws.TableRow.Statement (.sle rd rs1 rs2) :=
  fun _ => ⟨⟨"SLE", 0xFC0007FF, 0x0000002C⟩, List.mem_of_getElem? (i := 47) rfl, rfl, packR_row (free _) (free _) (free _)⟩

theorem Laws.TableRow.sge (rd : GReg) (rs1 : GReg) (rs2 : GReg) :
    Laws.TableRow.Statement (.sge rd rs1 rs2) :=
  fun _ => ⟨⟨"SGE", 0xFC0007FF, 0x0000002D⟩, List.mem_of_getElem? (i := 48) rfl, rfl, packR_row (free _) (free _) (free _)⟩

theorem Laws.TableRow.seqi (rd : GReg) (rs1 : GReg) (imm16 : Imm16) :
    Laws.TableRow.Statement (.seqi rd rs1 imm16) :=
  fun _ => ⟨⟨"SEQI", 0xFC000000, 0x60000000⟩, List.mem_of_getElem? (i := 49) rfl, rfl, packI_row (free _) (free _) (free _)⟩

theorem Laws.TableRow.snei (rd : GReg) (rs1 : GReg) (imm16 : Imm16) :
    Laws.TableRow.Statement (.snei rd rs1 imm16) :=
  fun _ => ⟨⟨"SNEI", 0xFC000000, 0x64000000⟩, List.mem_of_getElem? (i := 50) rfl, rfl, packI_row (free _) (free _) (free _)⟩

theorem Laws.TableRow.slti (rd : GReg) (rs1 : GReg) (imm16 : Imm16) :
    Laws.TableRow.Statement (.slti rd rs1 imm16) :=
  fun _ => ⟨⟨"SLTI", 0xFC000000, 0x68000000⟩, List.mem_of_getElem? (i := 51) rfl, rfl, packI_row (free _) (free _) (free _)⟩

theorem Laws.TableRow.sgti (rd : GReg) (rs1 : GReg) (imm16 : Imm16) :
    Laws.TableRow.Statement (.sgti rd rs1 imm16) :=
  fun _ => ⟨⟨"SGTI", 0xFC000000, 0x6C000000⟩, List.mem_of_getElem? (i := 52) rfl, rfl, packI_row (free _) (free _) (free _)⟩

theorem Laws.TableRow.slei (rd : GReg) (rs1 : GReg) (imm16 : Imm16) :
    Laws.TableRow.Statement (.slei rd rs1 imm16) :=
  fun _ => ⟨⟨"SLEI", 0xFC000000, 0x70000000⟩, List.mem_of_getElem? (i := 53) rfl, rfl, packI_row (free _) (free _) (free _)⟩

theorem Laws.TableRow.sgei (rd : GReg) (rs1 : GReg) (imm16 : Imm16) :
    Laws.TableRow.Statement (.sgei rd rs1 imm16) :=
  fun _ => ⟨⟨"SGEI", 0xFC000000, 0x74000000⟩, List.mem_of_getElem? (i := 54) rfl, rfl, packI_row (free _) (free _) (free _)⟩

theorem Laws.TableRow.sequ (rd : GReg) (rs1 : GReg) (rs2 : GReg) :
    Laws.TableRow.Statement (.sequ rd rs1 rs2) :=
  fun _ => ⟨⟨"SEQU", 0xFC0007FF, 0x00000010⟩, List.mem_of_getElem? (i := 55) rfl, rfl, packR_row (free _) (free _) (free _)⟩

theorem Laws.TableRow.sneu (rd : GReg) (rs1 : GReg) (rs2 : GReg) :
    Laws.TableRow.Statement (.sneu rd rs1 rs2) :=
  fun _ => ⟨⟨"SNEU", 0xFC0007FF, 0x00000011⟩, List.mem_of_getElem? (i := 56) rfl, rfl, packR_row (free _) (free _) (free _)⟩

theorem Laws.TableRow.sltu (rd : GReg) (rs1 : GReg) (rs2 : GReg) :
    Laws.TableRow.Statement (.sltu rd rs1 rs2) :=
  fun _ => ⟨⟨"SLTU", 0xFC0007FF, 0x00000012⟩, List.mem_of_getElem? (i := 57) rfl, rfl, packR_row (free _) (free _) (free _)⟩

theorem Laws.TableRow.sgtu (rd : GReg) (rs1 : GReg) (rs2 : GReg) :
    Laws.TableRow.Statement (.sgtu rd rs1 rs2) :=
  fun _ => ⟨⟨"SGTU", 0xFC0007FF, 0x00000013⟩, List.mem_of_getElem? (i := 58) rfl, rfl, packR_row (free _) (free _) (free _)⟩

theorem Laws.TableRow.sleu (rd : GReg) (rs1 : GReg) (rs2 : GReg) :
    Laws.TableRow.Statement (.sleu rd rs1 rs2) :=
  fun _ => ⟨⟨"SLEU", 0xFC0007FF, 0x00000014⟩, List.mem_of_getElem? (i := 59) rfl, rfl, packR_row (free _) (free _) (free _)⟩

theorem Laws.TableRow.sgeu (rd : GReg) (rs1 : GReg) (rs2 : GReg) :
    Laws.TableRow.Statement (.sgeu rd rs1 rs2) :=
  fun _ => ⟨⟨"SGEU", 0xFC0007FF, 0x00000015⟩, List.mem_of_getElem? (i := 60) rfl, rfl, packR_row (free _) (free _) (free _)⟩

theorem Laws.TableRow.sequi (rd : GReg) (rs1 : GReg) (imm16 : Imm16) :
    Laws.TableRow.Statement (.sequi rd rs1 imm16) :=
  fun _ => ⟨⟨"SEQUI", 0xFC000000, 0xC0000000⟩, List.mem_of_getElem? (i := 61) rfl, rfl, packI_row (free _) (free _) (free _)⟩

theorem Laws.TableRow.sneui (rd : GReg) (rs1 : GReg) (imm16 : Imm16) :
    Laws.TableRow.Statement (.sneui rd rs1 imm16) :=
  fun _ => ⟨⟨"SNEUI", 0xFC000000, 0xC4000000⟩, List.mem_of_getElem? (i := 62) rfl, rfl, packI_row (free _) (free _) (free _)⟩

theorem Laws.TableRow.sltui (rd : GReg) (rs1 : GReg) (imm16 : Imm16) :
    Laws.TableRow.Statement (.sltui rd rs1 imm16) :=
  fun _ => ⟨⟨"SLTUI", 0xFC000000, 0xC8000000⟩, List.mem_of_getElem? (i := 63) rfl, rfl, packI_row (free _) (free _) (free _)⟩

theorem Laws.TableRow.sgtui (rd : GReg) (rs1 : GReg) (imm16 : Imm16) :
    Laws.TableRow.Statement (.sgtui rd rs1 imm16) :=
  fun _ => ⟨⟨"SGTUI", 0xFC000000, 0xCC000000⟩, List.mem_of_getElem? (i := 64) rfl, rfl, packI_row (free _) (free _) (free _)⟩

theorem Laws.TableRow.sleui (rd : GReg) (rs1 : GReg) (imm16 : Imm16) :
    Laws.TableRow.Statement (.sleui rd rs1 imm16) :=
  fun _ => ⟨⟨"SLEUI", 0xFC000000, 0xD0000000⟩, List.mem_of_getElem? (i := 65) rfl, rfl, packI_row (free _) (free _) (free _)⟩

theorem Laws.TableRow.sgeui (rd : GReg) (rs1 : GReg) (imm16 : Imm16) :
    Laws.TableRow.Statement (.sgeui rd rs1 imm16) :=
  fun _ => ⟨⟨"SGEUI", 0xFC000000, 0xD4000000⟩, List.mem_of_getElem? (i := 66) rfl, rfl, packI_row (free _) (free _) (free _)⟩

theorem Laws.TableRow.nop :
    Laws.TableRow.Statement .nop :=
  fun _ => ⟨⟨"NOP", 0xFFFFFFFF, 0x00000000⟩, List.mem_of_getElem? (i := 67) rfl, rfl, packR_row (unused 0x1F#5) (unused 0x1F#5) (unused 0x1F#5)⟩

theorem Laws.TableRow.beqz (rs1 : GReg) (imm16 : Imm16) :
    Laws.TableRow.Statement (.beqz rs1 imm16) :=
  fun _ => ⟨⟨"BEQZ", 0xFC1F0000, 0x10000000⟩, List.mem_of_getElem? (i := 68) rfl, rfl, packI_row (free _) (unused 0x1F#5) (free _)⟩

theorem Laws.TableRow.bnez (rs1 : GReg) (imm16 : Imm16) :
    Laws.TableRow.Statement (.bnez rs1 imm16) :=
  fun _ => ⟨⟨"BNEZ", 0xFC1F0000, 0x14000000⟩, List.mem_of_getElem? (i := 69) rfl, rfl, packI_row (free _) (unused 0x1F#5) (free _)⟩

theorem Laws.TableRow.bfpt (imm16 : Imm16) :
    Laws.TableRow.Statement (.bfpt imm16) :=
  fun _ => ⟨⟨"BFPT", 0xFFFF0000, 0x18000000⟩, List.mem_of_getElem? (i := 70) rfl, rfl, packI_row (unused 0x1F#5) (unused 0x1F#5) (free _)⟩

theorem Laws.TableRow.bfpf (imm16 : Imm16) :
    Laws.TableRow.Statement (.bfpf imm16) :=
  fun _ => ⟨⟨"BFPF", 0xFFFF0000, 0x1C000000⟩, List.mem_of_getElem? (i := 71) rfl, rfl, packI_row (unused 0x1F#5) (unused 0x1F#5) (free _)⟩

theorem Laws.TableRow.j (off26 : Off26) :
    Laws.TableRow.Statement (.j off26) :=
  fun _ => ⟨⟨"J", 0xFC000000, 0x08000000⟩, List.mem_of_getElem? (i := 72) rfl, rfl, packJ_row⟩

theorem Laws.TableRow.jr (rs1 : GReg) :
    Laws.TableRow.Statement (.jr rs1) :=
  fun _ => ⟨⟨"JR", 0xFC1FFFFF, 0x48000000⟩, List.mem_of_getElem? (i := 73) rfl, rfl, packI_row (free _) (unused 0x1F#5) (unused 0xFFFF#16)⟩

theorem Laws.TableRow.jal (off26 : Off26) :
    Laws.TableRow.Statement (.jal off26) :=
  fun _ => ⟨⟨"JAL", 0xFC000000, 0x0C000000⟩, List.mem_of_getElem? (i := 74) rfl, rfl, packJ_row⟩

theorem Laws.TableRow.jalr (rs1 : GReg) :
    Laws.TableRow.Statement (.jalr rs1) :=
  fun _ => ⟨⟨"JALR", 0xFC1FFFFF, 0x4C000000⟩, List.mem_of_getElem? (i := 75) rfl, rfl, packI_row (free _) (unused 0x1F#5) (unused 0xFFFF#16)⟩

theorem Laws.TableRow.trap (off26 : Off26) :
    Laws.TableRow.Statement (.trap off26) :=
  fun _ => ⟨⟨"TRAP", 0xFC000000, 0x44000000⟩, List.mem_of_getElem? (i := 76) rfl, rfl, packJ_row⟩

theorem Laws.TableRow.rfe (off26 : Off26) :
    Laws.TableRow.Statement (.rfe off26) :=
  fun _ => ⟨⟨"RFE", 0xFC000000, 0x40000000⟩, List.mem_of_getElem? (i := 77) rfl, rfl, packJ_row⟩

theorem Laws.TableRow.addd (rd : DReg) (rs1 : DReg) (rs2 : DReg) :
    Laws.TableRow.Statement (.addd rd rs1 rs2) :=
  fun h => ⟨⟨"ADDD", 0xFC210FFF, 0x04000004⟩, List.mem_of_getElem? (i := 78) rfl, rfl, packR_row (pair_bit (pairs3 h).2.1) (pair_bit (pairs3 h).2.2) (pair_bit (pairs3 h).1)⟩

theorem Laws.TableRow.addf (rd : FReg) (rs1 : FReg) (rs2 : FReg) :
    Laws.TableRow.Statement (.addf rd rs1 rs2) :=
  fun _ => ⟨⟨"ADDF", 0xFC0007FF, 0x04000000⟩, List.mem_of_getElem? (i := 79) rfl, rfl, packR_row (free _) (free _) (free _)⟩

theorem Laws.TableRow.subd (rd : DReg) (rs1 : DReg) (rs2 : DReg) :
    Laws.TableRow.Statement (.subd rd rs1 rs2) :=
  fun h => ⟨⟨"SUBD", 0xFC210FFF, 0x04000005⟩, List.mem_of_getElem? (i := 80) rfl, rfl, packR_row (pair_bit (pairs3 h).2.1) (pair_bit (pairs3 h).2.2) (pair_bit (pairs3 h).1)⟩

theorem Laws.TableRow.subf (rd : FReg) (rs1 : FReg) (rs2 : FReg) :
    Laws.TableRow.Statement (.subf rd rs1 rs2) :=
  fun _ => ⟨⟨"SUBF", 0xFC0007FF, 0x04000001⟩, List.mem_of_getElem? (i := 81) rfl, rfl, packR_row (free _) (free _) (free _)⟩

theorem Laws.TableRow.multd (rd : DReg) (rs1 : DReg) (rs2 : DReg) :
    Laws.TableRow.Statement (.multd rd rs1 rs2) :=
  fun h => ⟨⟨"MULTD", 0xFC210FFF, 0x04000006⟩, List.mem_of_getElem? (i := 82) rfl, rfl, packR_row (pair_bit (pairs3 h).2.1) (pair_bit (pairs3 h).2.2) (pair_bit (pairs3 h).1)⟩

theorem Laws.TableRow.multf (rd : FReg) (rs1 : FReg) (rs2 : FReg) :
    Laws.TableRow.Statement (.multf rd rs1 rs2) :=
  fun _ => ⟨⟨"MULTF", 0xFC0007FF, 0x04000002⟩, List.mem_of_getElem? (i := 83) rfl, rfl, packR_row (free _) (free _) (free _)⟩

theorem Laws.TableRow.divd (rd : DReg) (rs1 : DReg) (rs2 : DReg) :
    Laws.TableRow.Statement (.divd rd rs1 rs2) :=
  fun h => ⟨⟨"DIVD", 0xFC210FFF, 0x04000007⟩, List.mem_of_getElem? (i := 84) rfl, rfl, packR_row (pair_bit (pairs3 h).2.1) (pair_bit (pairs3 h).2.2) (pair_bit (pairs3 h).1)⟩

theorem Laws.TableRow.divf (rd : FReg) (rs1 : FReg) (rs2 : FReg) :
    Laws.TableRow.Statement (.divf rd rs1 rs2) :=
  fun _ => ⟨⟨"DIVF", 0xFC0007FF, 0x04000003⟩, List.mem_of_getElem? (i := 85) rfl, rfl, packR_row (free _) (free _) (free _)⟩

theorem Laws.TableRow.cvtf2d (rd : DReg) (rs1 : FReg) :
    Laws.TableRow.Statement (.cvtf2d rd rs1) :=
  fun h => ⟨⟨"CVTF2D", 0xFC1F0FFF, 0x04000008⟩, List.mem_of_getElem? (i := 86) rfl, rfl, packR_row (free _) (unused 0x1F#5) (pair_bit h)⟩

theorem Laws.TableRow.cvtd2f (rd : FReg) (rs1 : DReg) :
    Laws.TableRow.Statement (.cvtd2f rd rs1) :=
  fun h => ⟨⟨"CVTD2F", 0xFC3F07FF, 0x0400000A⟩, List.mem_of_getElem? (i := 87) rfl, rfl, packR_row (pair_bit h) (unused 0x1F#5) (free _)⟩

theorem Laws.TableRow.cvtf2i (rd : FReg) (rs1 : FReg) :
    Laws.TableRow.Statement (.cvtf2i rd rs1) :=
  fun _ => ⟨⟨"CVTF2I", 0xFC1F07FF, 0x04000009⟩, List.mem_of_getElem? (i := 88) rfl, rfl, packR_row (free _) (unused 0x1F#5) (free _)⟩

theorem Laws.TableRow.cvti2f (rd : FReg) (rs1 : FReg) :
    Laws.TableRow.Statement (.cvti2f rd rs1) :=
  fun _ => ⟨⟨"CVTI2F", 0xFC1F07FF, 0x0400000C⟩, List.mem_of_getElem? (i := 89) rfl, rfl, packR_row (free _) (unused 0x1F#5) (free _)⟩

theorem Laws.TableRow.cvtd2i (rd : FReg) (rs1 : DReg) :
    Laws.TableRow.Statement (.cvtd2i rd rs1) :=
  fun h => ⟨⟨"CVTD2I", 0xFC3F07FF, 0x0400000B⟩, List.mem_of_getElem? (i := 90) rfl, rfl, packR_row (pair_bit h) (unused 0x1F#5) (free _)⟩

theorem Laws.TableRow.cvti2d (rd : DReg) (rs1 : FReg) :
    Laws.TableRow.Statement (.cvti2d rd rs1) :=
  fun h => ⟨⟨"CVTI2D", 0xFC1F0FFF, 0x0400000D⟩, List.mem_of_getElem? (i := 91) rfl, rfl, packR_row (free _) (unused 0x1F#5) (pair_bit h)⟩

theorem Laws.TableRow.eqd (rs1 : DReg) (rs2 : DReg) :
    Laws.TableRow.Statement (.eqd rs1 rs2) :=
  fun h => ⟨⟨"EQD", 0xFC21FFFF, 0x04000018⟩, List.mem_of_getElem? (i := 92) rfl, rfl, packR_row (pair_bit (pairs2 h).1) (pair_bit (pairs2 h).2) (unused 0x1F#5)⟩

theorem Laws.TableRow.ned (rs1 : DReg) (rs2 : DReg) :
    Laws.TableRow.Statement (.ned rs1 rs2) :=
  fun h => ⟨⟨"NED", 0xFC21FFFF, 0x04000019⟩, List.mem_of_getElem? (i := 93) rfl, rfl, packR_row (pair_bit (pairs2 h).1) (pair_bit (pairs2 h).2) (unused 0x1F#5)⟩

theorem Laws.TableRow.ltd (rs1 : DReg) (rs2 : DReg) :
    Laws.TableRow.Statement (.ltd rs1 rs2) :=
  fun h => ⟨⟨"LTD", 0xFC21FFFF, 0x0400001A⟩, List.mem_of_getElem? (i := 94) rfl, rfl, packR_row (pair_bit (pairs2 h).1) (pair_bit (pairs2 h).2) (unused 0x1F#5)⟩

theorem Laws.TableRow.gtd (rs1 : DReg) (rs2 : DReg) :
    Laws.TableRow.Statement (.gtd rs1 rs2) :=
  fun h => ⟨⟨"GTD", 0xFC21FFFF, 0x0400001B⟩, List.mem_of_getElem? (i := 95) rfl, rfl, packR_row (pair_bit (pairs2 h).1) (pair_bit (pairs2 h).2) (unused 0x1F#5)⟩

theorem Laws.TableRow.led (rs1 : DReg) (rs2 : DReg) :
    Laws.TableRow.Statement (.led rs1 rs2) :=
  fun h => ⟨⟨"LED", 0xFC21FFFF, 0x0400001C⟩, List.mem_of_getElem? (i := 96) rfl, rfl, packR_row (pair_bit (pairs2 h).1) (pair_bit (pairs2 h).2) (unused 0x1F#5)⟩

theorem Laws.TableRow.ged (rs1 : DReg) (rs2 : DReg) :
    Laws.TableRow.Statement (.ged rs1 rs2) :=
  fun h => ⟨⟨"GED", 0xFC21FFFF, 0x0400001D⟩, List.mem_of_getElem? (i := 97) rfl, rfl, packR_row (pair_bit (pairs2 h).1) (pair_bit (pairs2 h).2) (unused 0x1F#5)⟩

theorem Laws.TableRow.eqf (rs1 : FReg) (rs2 : FReg) :
    Laws.TableRow.Statement (.eqf rs1 rs2) :=
  fun _ => ⟨⟨"EQF", 0xFC00FFFF, 0x04000010⟩, List.mem_of_getElem? (i := 98) rfl, rfl, packR_row (free _) (free _) (unused 0x1F#5)⟩

theorem Laws.TableRow.nef (rs1 : FReg) (rs2 : FReg) :
    Laws.TableRow.Statement (.nef rs1 rs2) :=
  fun _ => ⟨⟨"NEF", 0xFC00FFFF, 0x04000011⟩, List.mem_of_getElem? (i := 99) rfl, rfl, packR_row (free _) (free _) (unused 0x1F#5)⟩

theorem Laws.TableRow.ltf (rs1 : FReg) (rs2 : FReg) :
    Laws.TableRow.Statement (.ltf rs1 rs2) :=
  fun _ => ⟨⟨"LTF", 0xFC00FFFF, 0x04000012⟩, List.mem_of_getElem? (i := 100) rfl, rfl, packR_row (free _) (free _) (unused 0x1F#5)⟩

theorem Laws.TableRow.gtf (rs1 : FReg) (rs2 : FReg) :
    Laws.TableRow.Statement (.gtf rs1 rs2) :=
  fun _ => ⟨⟨"GTF", 0xFC00FFFF, 0x04000013⟩, List.mem_of_getElem? (i := 101) rfl, rfl, packR_row (free _) (free _) (unused 0x1F#5)⟩

theorem Laws.TableRow.lef (rs1 : FReg) (rs2 : FReg) :
    Laws.TableRow.Statement (.lef rs1 rs2) :=
  fun _ => ⟨⟨"LEF", 0xFC00FFFF, 0x04000014⟩, List.mem_of_getElem? (i := 102) rfl, rfl, packR_row (free _) (free _) (unused 0x1F#5)⟩

theorem Laws.TableRow.gef (rs1 : FReg) (rs2 : FReg) :
    Laws.TableRow.Statement (.gef rs1 rs2) :=
  fun _ => ⟨⟨"GEF", 0xFC00FFFF, 0x04000015⟩, List.mem_of_getElem? (i := 103) rfl, rfl, packR_row (free _) (free _) (unused 0x1F#5)⟩

end Sys2Proof
end

