-- ==== Sys2Proof/Tests/Slice0.lean ====
section
/-! SUPPORT. Tests: ill-formed terms, decoding of words written out from the spec's encodings, one step of every
instruction on the vectors of 95_test_vectors.md, the assembler on the example of 45_assembler.md R313, and a witness
for the hypotheses of each statement. -/

namespace Sys2Proof.Tests

open Sys2Proof Sys2Proof.Machine Sys2Proof.Config

/-! ### Helpers -/

/-- Reset, the registers as given, the bytes 0x1000 .. 0x100F as 95_test_vectors.md has them, and a word at pc. -/
def setUp (policy : OvfPolicy) (word : Nat) (changes : List HostChange) : State :=
  (({ State.reset with params := { State.reset.params with ovfPolicy := policy } } : State).applyHostAll changes
    |>.place 0x1000 [0x80, 0xFF, 0x7F, 0x01, 0x12, 0x34, 0x56, 0x78, 0x40, 0x18, 0, 0, 0, 0, 0, 0]).withFetchWord 32 word

/-- One step of the machine so set up. -/
def runWord (policy : OvfPolicy) (word : Nat) (changes : List HostChange) : Result :=
  step (setUp policy word changes)

/-- The piece of state an item names holds its value. -/
def holds (t : State) : HostChange → Bool
  | .gpr r v => t.gpr r == v
  | .fpr r v => t.fpr r == v
  | .fpsrC c => t.fpsrC == c
  | .pc v => t.pc == v
  | .memByte a v => t.readByte a.toNat == some v
  | .status st => decide (t.status = st)

/-- The step answers a next state in which every item holds. -/
def leaves (r : Result) (items : List HostChange) : Bool :=
  match r with
  | .next t => items.all (holds t)
  | .fault _ => false
  | .refused _ => false

/-- The step stops with the fault. -/
def stopsWith (r : Result) (f : Fault) : Bool :=
  match r with
  | .next _ => false
  | .fault g => decide (g = f)
  | .refused _ => false

/-! ### Ill-formed terms: an odd number for a pair (10_state.md R38) -/

theorem test_odd_pairs_are_ill_formed :
    (Instr.ld 1 0 0).wellFormed = false ∧ (Instr.sd 0 0 31).wellFormed = false ∧
    (Instr.movd 1 2).wellFormed = false ∧ (Instr.movd 2 1).wellFormed = false ∧
    (Instr.cvtf2d 3 3).wellFormed = false ∧ (Instr.cvtd2f 3 3).wellFormed = false ∧
    (Instr.cvtd2i 2 3).wellFormed = false ∧ (Instr.cvti2d 3 2).wellFormed = false := by
  decide

theorem test_odd_arithmetic_pairs_are_ill_formed :
    (Instr.addd 1 2 4).wellFormed = false ∧ (Instr.addd 2 1 4).wellFormed = false ∧
    (Instr.addd 2 4 1).wellFormed = false ∧ (Instr.subd 1 2 4).wellFormed = false ∧
    (Instr.subd 2 1 4).wellFormed = false ∧ (Instr.subd 2 4 1).wellFormed = false ∧
    (Instr.multd 1 2 4).wellFormed = false ∧ (Instr.multd 2 1 4).wellFormed = false ∧
    (Instr.multd 2 4 1).wellFormed = false ∧ (Instr.divd 1 2 4).wellFormed = false ∧
    (Instr.divd 2 1 4).wellFormed = false ∧ (Instr.divd 2 4 1).wellFormed = false := by
  decide

theorem test_odd_compare_pairs_are_ill_formed :
    (Instr.eqd 1 2).wellFormed = false ∧ (Instr.eqd 2 1).wellFormed = false ∧
    (Instr.ned 1 2).wellFormed = false ∧ (Instr.ned 2 1).wellFormed = false ∧
    (Instr.ltd 1 2).wellFormed = false ∧ (Instr.ltd 2 1).wellFormed = false ∧
    (Instr.gtd 1 2).wellFormed = false ∧ (Instr.gtd 2 1).wellFormed = false ∧
    (Instr.led 1 2).wellFormed = false ∧ (Instr.led 2 1).wellFormed = false ∧
    (Instr.ged 1 2).wellFormed = false ∧ (Instr.ged 2 1).wellFormed = false := by
  decide

/-! ### Decoding: words written out in the fields of 30_encoding.md R91 to R93 -/

theorem test_decode_data_transfer_1 :
    decodeWord 0b100000_00001_00010_0000000000000000#32 = .ok (.lb 2 1 0) ∧
    decodeWord 0b100100_00001_00010_0000000000000000#32 = .ok (.lbu 2 1 0) ∧
    decodeWord 0b100001_00001_00010_0000000000000000#32 = .ok (.lh 2 1 0) ∧
    decodeWord 0b100101_00001_00010_0000000000000000#32 = .ok (.lhu 2 1 0) ∧
    decodeWord 0b100011_00000_00010_0001000000000100#32 = .ok (.lw 2 0 4100) ∧
    decodeWord 0b100110_00001_00100_0000000000001000#32 = .ok (.lf 4 1 8) ∧
    decodeWord 0b100111_00001_00010_0000000000010000#32 = .ok (.ld 2 1 16) ∧
    decodeWord 0b101000_00000_00101_0000000100000011#32 = .ok (.sb 0 259 5) ∧
    decodeWord 0b101001_00001_00101_0000000000000010#32 = .ok (.sh 1 2 5) ∧
    decodeWord 0b101011_00000_00001_0001000000000000#32 = .ok (.sw 0 4096 1) ∧
    decodeWord 0b101110_00001_00011_0000000000000000#32 = .ok (.sf 1 0 3) ∧
    decodeWord 0b101111_00000_00010_0001000000001000#32 = .ok (.sd 0 4104 2) ∧
    decodeWord 0b000000_00001_00000_00001_00000110101#32 = .ok (.movi2fp 1 1) := by
  decide

theorem test_decode_data_transfer_2 :
    decodeWord 0b000000_00110_00000_00100_00000110100#32 = .ok (.movfp2i 4 6) ∧
    decodeWord 0b000000_00010_00000_00001_00000110010#32 = .ok (.movf 1 2) ∧
    decodeWord 0b000000_00100_00000_00010_00000110011#32 = .ok (.movd 2 4) ∧
    decodeWord 0b000000_00001_00000_00000_00000110000#32 = .ok (.movi2s 0 1) ∧
    decodeWord 0b000000_00000_00000_00001_00000110001#32 = .ok (.movs2i 1 0) := by
  decide

theorem test_decode_arithmetic :
    decodeWord 0b000000_01010_11111_00011_00000100000#32 = .ok (.add 3 10 31) ∧
    decodeWord 0b001000_00010_00001_1000000000000000#32 = .ok (.addi 1 2 32768) ∧
    decodeWord 0b000000_00010_00011_00001_00000100001#32 = .ok (.addu 1 2 3) ∧
    decodeWord 0b001001_00010_00001_1111111111111111#32 = .ok (.addui 1 2 65535) ∧
    decodeWord 0b000000_00010_00011_00001_00000100010#32 = .ok (.sub 1 2 3) ∧
    decodeWord 0b001010_00010_00001_1000000000000000#32 = .ok (.subi 1 2 32768) ∧
    decodeWord 0b000000_00010_00011_00001_00000100011#32 = .ok (.subu 1 2 3) ∧
    decodeWord 0b001011_00010_00001_1111111111111111#32 = .ok (.subui 1 2 65535) ∧
    decodeWord 0b000001_00010_00011_00001_00000001110#32 = .ok (.mult 1 2 3) ∧
    decodeWord 0b000001_00010_00011_00001_00000010110#32 = .ok (.multu 1 2 3) ∧
    decodeWord 0b000001_00010_00011_00001_00000001111#32 = .ok (.div 1 2 3) ∧
    decodeWord 0b000001_00010_00011_00001_00000010111#32 = .ok (.divu 1 2 3) := by
  decide

theorem test_decode_logic_1 :
    decodeWord 0b000000_00010_00011_00001_00000100100#32 = .ok (.and 1 2 3) ∧
    decodeWord 0b001100_00010_00001_1000000000000000#32 = .ok (.andi 1 2 32768) ∧
    decodeWord 0b000000_00010_00011_00001_00000100101#32 = .ok (.or 1 2 3) ∧
    decodeWord 0b001101_00010_00001_1000000000000000#32 = .ok (.ori 1 2 32768) ∧
    decodeWord 0b000000_00010_00011_00001_00000100110#32 = .ok (.xor 1 2 3) ∧
    decodeWord 0b001110_00010_00001_1111111111111111#32 = .ok (.xori 1 2 65535) ∧
    decodeWord 0b001111_00000_00001_0001001000110100#32 = .ok (.lhi 1 4660) ∧
    decodeWord 0b000000_00010_00011_00001_00000000100#32 = .ok (.sll 1 2 3) ∧
    decodeWord 0b000000_00010_00011_00001_00000000110#32 = .ok (.srl 1 2 3) ∧
    decodeWord 0b000000_00010_00011_00001_00000000111#32 = .ok (.sra 1 2 3) ∧
    decodeWord 0b010100_00100_00010_0000000000011111#32 = .ok (.slli 2 4 31) ∧
    decodeWord 0b010110_00100_00010_0000000000010000#32 = .ok (.srli 2 4 16) ∧
    decodeWord 0b010111_00100_00010_0000000000010000#32 = .ok (.srai 2 4 16) := by
  decide

theorem test_decode_logic_2 :
    decodeWord 0b000000_00010_00011_00001_00000101000#32 = .ok (.seq 1 2 3) ∧
    decodeWord 0b000000_00010_00011_00001_00000101001#32 = .ok (.sne 1 2 3) ∧
    decodeWord 0b000000_00010_00011_00001_00000101010#32 = .ok (.slt 1 2 3) ∧
    decodeWord 0b000000_00010_00011_00001_00000101011#32 = .ok (.sgt 1 2 3) ∧
    decodeWord 0b000000_00010_00011_00001_00000101100#32 = .ok (.sle 1 2 3) ∧
    decodeWord 0b000000_00010_00011_00001_00000101101#32 = .ok (.sge 1 2 3) ∧
    decodeWord 0b011000_00010_00001_1111111111111111#32 = .ok (.seqi 1 2 65535) ∧
    decodeWord 0b011001_00010_00001_1111111111111111#32 = .ok (.snei 1 2 65535) ∧
    decodeWord 0b011010_00010_00001_1000000000000000#32 = .ok (.slti 1 2 32768) ∧
    decodeWord 0b011011_00010_00101_0000000000001010#32 = .ok (.sgti 5 2 10) ∧
    decodeWord 0b011100_00010_00001_1111111111111111#32 = .ok (.slei 1 2 65535) ∧
    decodeWord 0b011101_00010_00001_1111111111111111#32 = .ok (.sgei 1 2 65535) ∧
    decodeWord 0b000000_00010_00011_00001_00000010000#32 = .ok (.sequ 1 2 3) := by
  decide

theorem test_decode_logic_3 :
    decodeWord 0b000000_00010_00011_00001_00000010001#32 = .ok (.sneu 1 2 3) ∧
    decodeWord 0b000000_00010_00011_00001_00000010010#32 = .ok (.sltu 1 2 3) ∧
    decodeWord 0b000000_00010_00011_00001_00000010011#32 = .ok (.sgtu 1 2 3) ∧
    decodeWord 0b000000_00010_00011_00001_00000010100#32 = .ok (.sleu 1 2 3) ∧
    decodeWord 0b000000_00010_00011_00001_00000010101#32 = .ok (.sgeu 1 2 3) ∧
    decodeWord 0b110000_00010_00001_1111111111111111#32 = .ok (.sequi 1 2 65535) ∧
    decodeWord 0b110001_00010_00001_1111111111111111#32 = .ok (.sneui 1 2 65535) ∧
    decodeWord 0b110010_00010_00001_1000000000000000#32 = .ok (.sltui 1 2 32768) ∧
    decodeWord 0b110011_00010_00001_1111111111111111#32 = .ok (.sgtui 1 2 65535) ∧
    decodeWord 0b110100_00010_00001_1111111111111111#32 = .ok (.sleui 1 2 65535) ∧
    decodeWord 0b110101_00010_00001_1111111111111111#32 = .ok (.sgeui 1 2 65535) ∧
    decodeWord 0b000000_00000_00000_00000_00000000000#32 = .ok (.nop) := by
  decide

theorem test_decode_control :
    decodeWord 0b000100_00001_00000_0111111111111100#32 = .ok (.beqz 1 32764) ∧
    decodeWord 0b000101_00001_00000_1111111111111000#32 = .ok (.bnez 1 65528) ∧
    decodeWord 0b000110_00000_00000_0000000000001000#32 = .ok (.bfpt 8) ∧
    decodeWord 0b000111_00000_00000_1111111111100000#32 = .ok (.bfpf 65504) ∧
    decodeWord 0b000010_11111111111111111111110100#32 = .ok (.j 67108852) ∧
    decodeWord 0b010010_11111_00000_0000000000000000#32 = .ok (.jr 31) ∧
    decodeWord 0b000011_00000000000000000000001100#32 = .ok (.jal 12) ∧
    decodeWord 0b010011_11111_00000_0000000000000000#32 = .ok (.jalr 31) ∧
    decodeWord 0b010001_00000000000000000000000000#32 = .ok (.trap 0) ∧
    decodeWord 0b010000_00000000000000000000000000#32 = .ok (.rfe 0) := by
  decide

theorem test_decode_floating_point_1 :
    decodeWord 0b000001_00100_00110_00010_00000000100#32 = .ok (.addd 2 4 6) ∧
    decodeWord 0b000001_00010_00011_00001_00000000000#32 = .ok (.addf 1 2 3) ∧
    decodeWord 0b000001_00100_00110_00010_00000000101#32 = .ok (.subd 2 4 6) ∧
    decodeWord 0b000001_00010_00011_00001_00000000001#32 = .ok (.subf 1 2 3) ∧
    decodeWord 0b000001_00100_00110_00010_00000000110#32 = .ok (.multd 2 4 6) ∧
    decodeWord 0b000001_00010_00011_00001_00000000010#32 = .ok (.multf 1 2 3) ∧
    decodeWord 0b000001_00100_00110_00010_00000000111#32 = .ok (.divd 2 4 6) ∧
    decodeWord 0b000001_00010_00011_00001_00000000011#32 = .ok (.divf 1 2 3) ∧
    decodeWord 0b000001_00011_00000_00100_00000001000#32 = .ok (.cvtf2d 4 3) ∧
    decodeWord 0b000001_00100_00000_00001_00000001010#32 = .ok (.cvtd2f 1 4) ∧
    decodeWord 0b000001_00011_00000_00110_00000001001#32 = .ok (.cvtf2i 6 3) ∧
    decodeWord 0b000001_00001_00000_00010_00000001100#32 = .ok (.cvti2f 2 1) ∧
    decodeWord 0b000001_00100_00000_00001_00000001011#32 = .ok (.cvtd2i 1 4) := by
  decide

theorem test_decode_floating_point_2 :
    decodeWord 0b000001_00001_00000_00100_00000001101#32 = .ok (.cvti2d 4 1) ∧
    decodeWord 0b000001_00010_00100_00000_00000011000#32 = .ok (.eqd 2 4) ∧
    decodeWord 0b000001_00010_00100_00000_00000011001#32 = .ok (.ned 2 4) ∧
    decodeWord 0b000001_00010_00100_00000_00000011010#32 = .ok (.ltd 2 4) ∧
    decodeWord 0b000001_00010_00100_00000_00000011011#32 = .ok (.gtd 2 4) ∧
    decodeWord 0b000001_00010_00100_00000_00000011100#32 = .ok (.led 2 4) ∧
    decodeWord 0b000001_00010_00100_00000_00000011101#32 = .ok (.ged 2 4) ∧
    decodeWord 0b000001_00010_00011_00000_00000010000#32 = .ok (.eqf 2 3) ∧
    decodeWord 0b000001_00010_00011_00000_00000010001#32 = .ok (.nef 2 3) ∧
    decodeWord 0b000001_00010_00011_00000_00000010010#32 = .ok (.ltf 2 3) ∧
    decodeWord 0b000001_00010_00011_00000_00000010011#32 = .ok (.gtf 2 3) ∧
    decodeWord 0b000001_00010_00011_00000_00000010100#32 = .ok (.lef 2 3) ∧
    decodeWord 0b000001_00010_00011_00000_00000010101#32 = .ok (.gef 2 3) := by
  decide

/-! ### One step of every instruction (95_test_vectors.md) -/

/-- `lb r2,0(r1)` -/
theorem test_lb : leaves (runWord .fault 0x80220000 [.gpr 1 0x1000])
    [.gpr 2 0xFFFFFF80, .pc 0x104] = true := by
  decide

/-- `lb r2,-1(r1)` -/
theorem test_lb_corner : stopsWith (runWord .fault 0x8022FFFF [.gpr 1 0x0]) (.accessFault 0xFFFFFFFF#32 1) = true := by
  decide

/-- `lbu r2,0(r1)` -/
theorem test_lbu : leaves (runWord .fault 0x90220000 [.gpr 1 0x1000])
    [.gpr 2 0x80, .pc 0x104] = true := by
  decide

/-- `lh r2,0(r1)` -/
theorem test_lh : leaves (runWord .fault 0x84220000 [.gpr 1 0x1000])
    [.gpr 2 0xFFFF80FF, .pc 0x104] = true := by
  decide

/-- `lh r2,1(r1)` -/
theorem test_lh_corner : stopsWith (runWord .fault 0x84220001 [.gpr 1 0x1000]) (.addressMisaligned 0x1001#32 2) = true := by
  decide

/-- `lhu r2,0(r1)` -/
theorem test_lhu : leaves (runWord .fault 0x94220000 [.gpr 1 0x1000])
    [.gpr 2 0x80FF, .pc 0x104] = true := by
  decide

/-- `lw r2,4(r1)` -/
theorem test_lw : leaves (runWord .fault 0x8C220004 [.gpr 1 0x1000])
    [.gpr 2 0x12345678, .pc 0x104] = true := by
  decide

/-- `lw r2,16(r1)` -/
theorem test_lw_corner : stopsWith (runWord .fault 0x8C220010 [.gpr 1 0x1000]) (.unwrittenRead 0x1010#32) = true := by
  decide

/-- `lf f1,4(r1)` -/
theorem test_lf : leaves (runWord .fault 0x98210004 [.gpr 1 0x1000])
    [.fpr 1 0x12345678, .pc 0x104] = true := by
  decide

/-- `ld f2,8(r1)` -/
theorem test_ld : leaves (runWord .fault 0x9C220008 [.gpr 1 0x1000])
    [.fpr 2 0x40180000, .fpr 3 0x0, .pc 0x104] = true := by
  decide

/-- `ld f2,4(r1)` -/
theorem test_ld_corner : stopsWith (runWord .fault 0x9C220004 [.gpr 1 0x1000]) (.addressMisaligned 0x1004#32 8) = true := by
  decide

/-- `sb 3(r1),r5` -/
theorem test_sb : leaves (runWord .fault 0xA0250003 [.gpr 1 0x1000, .gpr 5 0xAABBCCDD])
    [.pc 0x104, .memByte 0x1003 0xDD] = true := by
  decide

/-- `sb 0x103(r0),r5` -/
theorem test_sb_corner : stopsWith (runWord .fault 0xA0050103 [.gpr 5 0xAABBCCDD]) (.storeToText 0x103#32 1) = true := by
  decide

/-- `sh 2(r1),r5` -/
theorem test_sh : leaves (runWord .fault 0xA4250002 [.gpr 1 0x1000, .gpr 5 0xAABBCCDD])
    [.pc 0x104, .memByte 0x1002 0xCC, .memByte 0x1003 0xDD] = true := by
  decide

/-- `sh 1(r1),r5` -/
theorem test_sh_corner : stopsWith (runWord .fault 0xA4250001 [.gpr 1 0x1000, .gpr 5 0xAABBCCDD]) (.addressMisaligned 0x1001#32 2) = true := by
  decide

/-- `sw 4(r1),r5` -/
theorem test_sw : leaves (runWord .fault 0xAC250004 [.gpr 1 0x1000, .gpr 5 0xAABBCCDD])
    [.pc 0x104, .memByte 0x1004 0xAA, .memByte 0x1005 0xBB, .memByte 0x1006 0xCC, .memByte 0x1007 0xDD] = true := by
  decide

/-- `sw 0(r1),r5` -/
theorem test_sw_corner : stopsWith (runWord .fault 0xAC250000 [.gpr 1 0x8000, .gpr 5 0xAABBCCDD]) (.accessFault 0x8000#32 4) = true := by
  decide

/-- `sf 0(r1),f3` -/
theorem test_sf : leaves (runWord .fault 0xB8230000 [.gpr 1 0x1000, .fpr 3 0x3FC00000])
    [.pc 0x104, .memByte 0x1000 0x3F, .memByte 0x1001 0xC0, .memByte 0x1002 0x00, .memByte 0x1003 0x00] = true := by
  decide

/-- `sd 8(r1),f2` -/
theorem test_sd : leaves (runWord .fault 0xBC220008 [.gpr 1 0x1000, .fpr 2 0x3FF80000, .fpr 3 0x1])
    [.pc 0x104, .memByte 0x1008 0x3F, .memByte 0x1009 0xF8, .memByte 0x100A 0x00, .memByte 0x100B 0x00, .memByte 0x100C 0x00, .memByte 0x100D 0x00, .memByte 0x100E 0x00, .memByte 0x100F 0x01] = true := by
  decide

/-- `sd 4(r1),f2` -/
theorem test_sd_corner : stopsWith (runWord .fault 0xBC220004 [.gpr 1 0x1000, .fpr 2 0x0, .fpr 3 0x0]) (.addressMisaligned 0x1004#32 8) = true := by
  decide

/-- `movi2fp f1,r1` -/
theorem test_movi2fp : leaves (runWord .fault 0x00200835 [.gpr 1 0x7FC00001])
    [.fpr 1 0x7FC00001, .pc 0x104] = true := by
  decide

/-- `movfp2i r4,f6` -/
theorem test_movfp2i : leaves (runWord .fault 0x00C02034 [.fpr 6 0xFFFFFFF9])
    [.gpr 4 0xFFFFFFF9, .pc 0x104] = true := by
  decide

/-- `movfp2i r0,f6` -/
theorem test_movfp2i_corner : leaves (runWord .fault 0x00C00034 [.fpr 6 0x5])
    [.pc 0x104] = true := by
  decide

/-- `movf f1,f2` -/
theorem test_movf : leaves (runWord .fault 0x00400832 [.fpr 2 0x7F800001])
    [.fpr 1 0x7F800001, .pc 0x104] = true := by
  decide

/-- `movd f2,f4` -/
theorem test_movd : leaves (runWord .fault 0x00801033 [.fpr 4 0x40180000, .fpr 5 0x1])
    [.fpr 2 0x40180000, .fpr 3 0x1, .pc 0x104] = true := by
  decide

/-- `movd f4,f4` -/
theorem test_movd_corner : leaves (runWord .fault 0x00802033 [.fpr 4 0x1, .fpr 5 0x2])
    [.pc 0x104] = true := by
  decide

/-- `(movi2s fpsr,r1)` -/
theorem test_movi2s : stopsWith (runWord .fault 0x00200030 [.gpr 1 0x0]) (.notImplemented .movi2s) = true := by
  decide

/-- `(movs2i r1,fpsr)` -/
theorem test_movs2i : stopsWith (runWord .fault 0x00000831 []) (.notImplemented .movs2i) = true := by
  decide

/-- `add r1,r2,r3` -/
theorem test_add : leaves (runWord .fault 0x00430820 [.gpr 2 0x5, .gpr 3 0xFFFFFFFD])
    [.gpr 1 0x2, .pc 0x104] = true := by
  decide

/-- `add r1,r1,r1` -/
theorem test_add_corner : stopsWith (runWord .fault 0x00210820 [.gpr 1 0x40000000]) (.integerOverflow) = true := by
  decide

/-- `addi r1,r3,#5` -/
theorem test_addi : leaves (runWord .fault 0x20610005 [.gpr 3 0xA])
    [.gpr 1 0xF, .pc 0x104] = true := by
  decide

/-- `addi r1,r2,#-32768` -/
theorem test_addi_corner : stopsWith (runWord .fault 0x20418000 [.gpr 2 0x80000000]) (.integerOverflow) = true := by
  decide

/-- `addu r1,r2,r3` -/
theorem test_addu : leaves (runWord .fault 0x00430821 [.gpr 2 0x7FFFFFFF, .gpr 3 0x1])
    [.gpr 1 0x80000000, .pc 0x104] = true := by
  decide

/-- `addu r1,r2,r3` -/
theorem test_addu_corner : leaves (runWord .fault 0x00430821 [.gpr 2 0xFFFFFFFF, .gpr 3 0x1])
    [.gpr 1 0x0, .pc 0x104] = true := by
  decide

/-- `addui r1,r2,#0xFFFF` -/
theorem test_addui : leaves (runWord .fault 0x2441FFFF [.gpr 2 0x1])
    [.gpr 1 0x10000, .pc 0x104] = true := by
  decide

/-- `addui r1,r2,#1` -/
theorem test_addui_corner : leaves (runWord .fault 0x24410001 [.gpr 2 0xFFFFFFFF])
    [.gpr 1 0x0, .pc 0x104] = true := by
  decide

/-- `sub r1,r2,r3` -/
theorem test_sub : leaves (runWord .fault 0x00430822 [.gpr 2 0x5, .gpr 3 0x7])
    [.gpr 1 0xFFFFFFFE, .pc 0x104] = true := by
  decide

/-- `sub r1,r0,r3` -/
theorem test_sub_corner : stopsWith (runWord .fault 0x00030822 [.gpr 3 0x80000000]) (.integerOverflow) = true := by
  decide

/-- `subi r1,r1,#1` -/
theorem test_subi : leaves (runWord .fault 0x28210001 [.gpr 1 0x1])
    [.gpr 1 0x0, .pc 0x104] = true := by
  decide

/-- `subi r1,r2,#-1` -/
theorem test_subi_corner : stopsWith (runWord .fault 0x2841FFFF [.gpr 2 0x7FFFFFFF]) (.integerOverflow) = true := by
  decide

/-- `subu r1,r2,r3` -/
theorem test_subu : leaves (runWord .fault 0x00430823 [.gpr 2 0x0, .gpr 3 0x1])
    [.gpr 1 0xFFFFFFFF, .pc 0x104] = true := by
  decide

/-- `subui r1,r2,#1` -/
theorem test_subui : leaves (runWord .fault 0x2C410001 [.gpr 2 0x0])
    [.gpr 1 0xFFFFFFFF, .pc 0x104] = true := by
  decide

/-- `subui r1,r2,#0xFFFF` -/
theorem test_subui_corner : leaves (runWord .fault 0x2C41FFFF [.gpr 2 0x10000])
    [.gpr 1 0x1, .pc 0x104] = true := by
  decide

/-- `mult r1,r2,r3` -/
theorem test_mult : leaves (runWord .fault 0x0443080E [.gpr 2 0xFFFFFFFD, .gpr 3 0x7])
    [.gpr 1 0xFFFFFFEB, .pc 0x104] = true := by
  decide

/-- `mult r1,r2,r3` -/
theorem test_mult_corner : stopsWith (runWord .fault 0x0443080E [.gpr 2 0x80000000, .gpr 3 0xFFFFFFFF]) (.integerOverflow) = true := by
  decide

/-- `multu r1,r2,r3` -/
theorem test_multu : leaves (runWord .fault 0x04430816 [.gpr 2 0xFFFFFFFF, .gpr 3 0xFFFFFFFF])
    [.gpr 1 0x1, .pc 0x104] = true := by
  decide

/-- `multu r1,r2,r3` -/
theorem test_multu_corner : leaves (runWord .fault 0x04430816 [.gpr 2 0x12345, .gpr 3 0x6789])
    [.gpr 1 0x75CCA2ED, .pc 0x104] = true := by
  decide

/-- `div r1,r2,r3` -/
theorem test_div : leaves (runWord .fault 0x0443080F [.gpr 2 0x7, .gpr 3 0x2])
    [.gpr 1 0x3, .pc 0x104] = true := by
  decide

/-- `div r1,r2,r3` -/
theorem test_div_corner : stopsWith (runWord .fault 0x0443080F [.gpr 2 0x80000000, .gpr 3 0xFFFFFFFF]) (.integerOverflow) = true := by
  decide

/-- `divu r1,r2,r3` -/
theorem test_divu : leaves (runWord .fault 0x04430817 [.gpr 2 0xFFFFFFF9, .gpr 3 0x2])
    [.gpr 1 0x7FFFFFFC, .pc 0x104] = true := by
  decide

/-- `divu r1,r2,r3` -/
theorem test_divu_corner : stopsWith (runWord .fault 0x04430817 [.gpr 2 0x5, .gpr 3 0x0]) (.divideByZero) = true := by
  decide

/-- `and r1,r2,r3` -/
theorem test_and : leaves (runWord .fault 0x00430824 [.gpr 2 0xFF00FF00, .gpr 3 0xFF00FF0])
    [.gpr 1 0xF000F00, .pc 0x104] = true := by
  decide

/-- `andi r1,r2,#0xFFFF` -/
theorem test_andi : leaves (runWord .fault 0x3041FFFF [.gpr 2 0x12345678])
    [.gpr 1 0x5678, .pc 0x104] = true := by
  decide

/-- `andi r1,r2,#0x8000` -/
theorem test_andi_corner : leaves (runWord .fault 0x30418000 [.gpr 2 0xFFFFFFFF])
    [.gpr 1 0x8000, .pc 0x104] = true := by
  decide

/-- `or r1,r2,r3` -/
theorem test_or : leaves (runWord .fault 0x00430825 [.gpr 2 0xFF00FF00, .gpr 3 0xFF00FF0])
    [.gpr 1 0xFFF0FFF0, .pc 0x104] = true := by
  decide

/-- `ori r1,r2,#0x8000` -/
theorem test_ori : leaves (runWord .fault 0x34418000 [.gpr 2 0x0])
    [.gpr 1 0x8000, .pc 0x104] = true := by
  decide

/-- `xor r1,r2,r3` -/
theorem test_xor : leaves (runWord .fault 0x00430826 [.gpr 2 0xFF00FF00, .gpr 3 0xFF00FF0])
    [.gpr 1 0xF0F0F0F0, .pc 0x104] = true := by
  decide

/-- `xor r1,r2,r2` -/
theorem test_xor_corner : leaves (runWord .fault 0x00420826 [.gpr 2 0xDEADBEEF])
    [.gpr 1 0x0, .pc 0x104] = true := by
  decide

/-- `xori r1,r2,#0xFFFF` -/
theorem test_xori : leaves (runWord .fault 0x3841FFFF [.gpr 2 0xFFFFFFFF])
    [.gpr 1 0xFFFF0000, .pc 0x104] = true := by
  decide

/-- `lhi r1,#0x1234` -/
theorem test_lhi : leaves (runWord .fault 0x3C011234 [])
    [.gpr 1 0x12340000, .pc 0x104] = true := by
  decide

/-- `lhi r0,#1` -/
theorem test_lhi_corner : leaves (runWord .fault 0x3C000001 [])
    [.pc 0x104] = true := by
  decide

/-- `sll r1,r2,r3` -/
theorem test_sll : leaves (runWord .fault 0x00430804 [.gpr 2 0x80000001, .gpr 3 0x1])
    [.gpr 1 0x2, .pc 0x104] = true := by
  decide

/-- `sll r1,r2,r3` -/
theorem test_sll_corner : leaves (runWord .fault 0x00430804 [.gpr 2 0x1, .gpr 3 0x21])
    [.gpr 1 0x2, .pc 0x104] = true := by
  decide

/-- `srl r1,r2,r3` -/
theorem test_srl : leaves (runWord .fault 0x00430806 [.gpr 2 0x80000000, .gpr 3 0x1F])
    [.gpr 1 0x1, .pc 0x104] = true := by
  decide

/-- `srl r1,r2,r3` -/
theorem test_srl_corner : leaves (runWord .fault 0x00430806 [.gpr 2 0x80000000, .gpr 3 0xFFFFFFFF])
    [.gpr 1 0x1, .pc 0x104] = true := by
  decide

/-- `sra r1,r2,r3` -/
theorem test_sra : leaves (runWord .fault 0x00430807 [.gpr 2 0xF0000000, .gpr 3 0x4])
    [.gpr 1 0xFF000000, .pc 0x104] = true := by
  decide

/-- `sra r1,r2,r3` -/
theorem test_sra_corner : leaves (runWord .fault 0x00430807 [.gpr 2 0x80000000, .gpr 3 0x0])
    [.gpr 1 0x80000000, .pc 0x104] = true := by
  decide

/-- `slli r2,r4,#1` -/
theorem test_slli : leaves (runWord .fault 0x50820001 [.gpr 4 0x7])
    [.gpr 2 0xE, .pc 0x104] = true := by
  decide

/-- `(slli, imm16 = 0x0021)` -/
theorem test_slli_corner : leaves (runWord .fault 0x50820021 [.gpr 4 0x1])
    [.gpr 2 0x2, .pc 0x104] = true := by
  decide

/-- `srli r2,r4,#16` -/
theorem test_srli : leaves (runWord .fault 0x58820010 [.gpr 4 0xABCD1234])
    [.gpr 2 0xABCD, .pc 0x104] = true := by
  decide

/-- `srai r2,r4,#16` -/
theorem test_srai : leaves (runWord .fault 0x5C820010 [.gpr 4 0xABCD1234])
    [.gpr 2 0xFFFFABCD, .pc 0x104] = true := by
  decide

/-- `srai r2,r4,#31` -/
theorem test_srai_corner : leaves (runWord .fault 0x5C82001F [.gpr 4 0x7FFFFFFF])
    [.gpr 2 0x0, .pc 0x104] = true := by
  decide

/-- `seq r1,r2,r3` -/
theorem test_seq : leaves (runWord .fault 0x00430828 [.gpr 2 0xFFFFFFFF, .gpr 3 0x1])
    [.gpr 1 0x0, .pc 0x104] = true := by
  decide

/-- `seq r1,r1,r1` -/
theorem test_seq_corner : leaves (runWord .fault 0x00210828 [.gpr 1 0x1234])
    [.gpr 1 0x1, .pc 0x104] = true := by
  decide

/-- `sne r1,r2,r3` -/
theorem test_sne : leaves (runWord .fault 0x00430829 [.gpr 2 0xFFFFFFFF, .gpr 3 0x1])
    [.gpr 1 0x1, .pc 0x104] = true := by
  decide

/-- `sne r1,r2,r3` -/
theorem test_sne_corner : leaves (runWord .fault 0x00430829 [.gpr 2 0x7, .gpr 3 0x7])
    [.gpr 1 0x0, .pc 0x104] = true := by
  decide

/-- `slt r1,r2,r3` -/
theorem test_slt : leaves (runWord .fault 0x0043082A [.gpr 2 0xFFFFFFFF, .gpr 3 0x1])
    [.gpr 1 0x1, .pc 0x104] = true := by
  decide

/-- `slt r1,r2,r3` -/
theorem test_slt_corner : leaves (runWord .fault 0x0043082A [.gpr 2 0x80000000, .gpr 3 0x7FFFFFFF])
    [.gpr 1 0x1, .pc 0x104] = true := by
  decide

/-- `sgt r1,r2,r3` -/
theorem test_sgt : leaves (runWord .fault 0x0043082B [.gpr 2 0xFFFFFFFF, .gpr 3 0x1])
    [.gpr 1 0x0, .pc 0x104] = true := by
  decide

/-- `sgt r1,r2,r3` -/
theorem test_sgt_corner : leaves (runWord .fault 0x0043082B [.gpr 2 0x7, .gpr 3 0x7])
    [.gpr 1 0x0, .pc 0x104] = true := by
  decide

/-- `sle r1,r2,r3` -/
theorem test_sle : leaves (runWord .fault 0x0043082C [.gpr 2 0xFFFFFFFF, .gpr 3 0x1])
    [.gpr 1 0x1, .pc 0x104] = true := by
  decide

/-- `sle r1,r2,r3` -/
theorem test_sle_corner : leaves (runWord .fault 0x0043082C [.gpr 2 0x7, .gpr 3 0x7])
    [.gpr 1 0x1, .pc 0x104] = true := by
  decide

/-- `sge r1,r2,r3` -/
theorem test_sge : leaves (runWord .fault 0x0043082D [.gpr 2 0xFFFFFFFF, .gpr 3 0x1])
    [.gpr 1 0x0, .pc 0x104] = true := by
  decide

/-- `sge r1,r2,r3` -/
theorem test_sge_corner : leaves (runWord .fault 0x0043082D [.gpr 2 0x7, .gpr 3 0x7])
    [.gpr 1 0x1, .pc 0x104] = true := by
  decide

/-- `seqi r1,r2,#-1` -/
theorem test_seqi : leaves (runWord .fault 0x6041FFFF [.gpr 2 0xFFFFFFFF])
    [.gpr 1 0x1, .pc 0x104] = true := by
  decide

/-- `snei r1,r2,#-1` -/
theorem test_snei : leaves (runWord .fault 0x6441FFFF [.gpr 2 0xFFFFFFFF])
    [.gpr 1 0x0, .pc 0x104] = true := by
  decide

/-- `slti r1,r2,#-1` -/
theorem test_slti : leaves (runWord .fault 0x6841FFFF [.gpr 2 0xFFFFFFFF])
    [.gpr 1 0x0, .pc 0x104] = true := by
  decide

/-- `slti r1,r2,#-32768` -/
theorem test_slti_corner : leaves (runWord .fault 0x68418000 [.gpr 2 0x80000000])
    [.gpr 1 0x1, .pc 0x104] = true := by
  decide

/-- `sgti r1,r2,#-1` -/
theorem test_sgti : leaves (runWord .fault 0x6C41FFFF [.gpr 2 0xFFFFFFFF])
    [.gpr 1 0x0, .pc 0x104] = true := by
  decide

/-- `sgti r5,r2,#10` -/
theorem test_sgti_corner : leaves (runWord .fault 0x6C45000A [.gpr 2 0xE])
    [.gpr 5 0x1, .pc 0x104] = true := by
  decide

/-- `slei r1,r2,#-1` -/
theorem test_slei : leaves (runWord .fault 0x7041FFFF [.gpr 2 0xFFFFFFFF])
    [.gpr 1 0x1, .pc 0x104] = true := by
  decide

/-- `sgei r1,r2,#-1` -/
theorem test_sgei : leaves (runWord .fault 0x7441FFFF [.gpr 2 0xFFFFFFFF])
    [.gpr 1 0x1, .pc 0x104] = true := by
  decide

/-- `sequ r1,r2,r3` -/
theorem test_sequ : leaves (runWord .fault 0x00430810 [.gpr 2 0xFFFFFFFF, .gpr 3 0x1])
    [.gpr 1 0x0, .pc 0x104] = true := by
  decide

/-- `sneu r1,r2,r3` -/
theorem test_sneu : leaves (runWord .fault 0x00430811 [.gpr 2 0xFFFFFFFF, .gpr 3 0x1])
    [.gpr 1 0x1, .pc 0x104] = true := by
  decide

/-- `sltu r1,r2,r3` -/
theorem test_sltu : leaves (runWord .fault 0x00430812 [.gpr 2 0xFFFFFFFF, .gpr 3 0x1])
    [.gpr 1 0x0, .pc 0x104] = true := by
  decide

/-- `sltu r1,r2,r3` -/
theorem test_sltu_corner : leaves (runWord .fault 0x00430812 [.gpr 2 0x80000000, .gpr 3 0x7FFFFFFF])
    [.gpr 1 0x0, .pc 0x104] = true := by
  decide

/-- `sgtu r1,r2,r3` -/
theorem test_sgtu : leaves (runWord .fault 0x00430813 [.gpr 2 0xFFFFFFFF, .gpr 3 0x1])
    [.gpr 1 0x1, .pc 0x104] = true := by
  decide

/-- `sleu r1,r2,r3` -/
theorem test_sleu : leaves (runWord .fault 0x00430814 [.gpr 2 0xFFFFFFFF, .gpr 3 0x1])
    [.gpr 1 0x0, .pc 0x104] = true := by
  decide

/-- `sgeu r1,r2,r3` -/
theorem test_sgeu : leaves (runWord .fault 0x00430815 [.gpr 2 0xFFFFFFFF, .gpr 3 0x1])
    [.gpr 1 0x1, .pc 0x104] = true := by
  decide

/-- `sequi r1,r2,#0xFFFF` -/
theorem test_sequi : leaves (runWord .fault 0xC041FFFF [.gpr 2 0xFFFFFFFF])
    [.gpr 1 0x0, .pc 0x104] = true := by
  decide

/-- `sneui r1,r2,#0xFFFF` -/
theorem test_sneui : leaves (runWord .fault 0xC441FFFF [.gpr 2 0xFFFFFFFF])
    [.gpr 1 0x1, .pc 0x104] = true := by
  decide

/-- `sltui r1,r2,#0xFFFF` -/
theorem test_sltui : leaves (runWord .fault 0xC841FFFF [.gpr 2 0xFFFFFFFF])
    [.gpr 1 0x0, .pc 0x104] = true := by
  decide

/-- `sltui r1,r2,#0x8000` -/
theorem test_sltui_corner : leaves (runWord .fault 0xC8418000 [.gpr 2 0x7FFF])
    [.gpr 1 0x1, .pc 0x104] = true := by
  decide

/-- `sgtui r1,r2,#0xFFFF` -/
theorem test_sgtui : leaves (runWord .fault 0xCC41FFFF [.gpr 2 0xFFFFFFFF])
    [.gpr 1 0x1, .pc 0x104] = true := by
  decide

/-- `sleui r1,r2,#0xFFFF` -/
theorem test_sleui : leaves (runWord .fault 0xD041FFFF [.gpr 2 0xFFFFFFFF])
    [.gpr 1 0x0, .pc 0x104] = true := by
  decide

/-- `sgeui r1,r2,#0xFFFF` -/
theorem test_sgeui : leaves (runWord .fault 0xD441FFFF [.gpr 2 0xFFFFFFFF])
    [.gpr 1 0x1, .pc 0x104] = true := by
  decide

/-- `nop` -/
theorem test_nop : leaves (runWord .fault 0x00000000 [.gpr 1 0x1])
    [.pc 0x104] = true := by
  decide

/-- `beqz r1,0x110` -/
theorem test_beqz : leaves (runWord .fault 0x1020000C [.pc 0x104, .gpr 1 0x0])
    [.pc 0x110] = true := by
  decide

/-- `beqz r1,0x102` -/
theorem test_beqz_corner : leaves (runWord .fault 0x10200002 [.gpr 1 0x0])
    [.pc 0x102] = true := by
  decide

/-- `bnez r1,0x108` -/
theorem test_bnez : leaves (runWord .fault 0x1420FFF8 [.pc 0x110, .gpr 1 0xFFFFFFFF])
    [.pc 0x108] = true := by
  decide

/-- `bnez r1,0x108` -/
theorem test_bnez_corner : leaves (runWord .fault 0x1420FFF8 [.pc 0x110, .gpr 1 0x0])
    [.pc 0x114] = true := by
  decide

/-- `bfpt 0x128` -/
theorem test_bfpt : leaves (runWord .fault 0x18000008 [.pc 0x120, .fpsrC true])
    [.pc 0x128] = true := by
  decide

/-- `bfpt 0x128` -/
theorem test_bfpt_corner : leaves (runWord .fault 0x18000008 [.pc 0x120])
    [.pc 0x124] = true := by
  decide

/-- `bfpf 0x100` -/
theorem test_bfpf : leaves (runWord .fault 0x1C00FFE0 [.pc 0x120])
    [.pc 0x100] = true := by
  decide

/-- `bfpf 0x100` -/
theorem test_bfpf_corner : leaves (runWord .fault 0x1C00FFE0 [.pc 0x120, .fpsrC true])
    [.pc 0x124] = true := by
  decide

/-- `j 0x100` -/
theorem test_j : leaves (runWord .fault 0x0BFFFFF4 [.pc 0x10C])
    [.pc 0x100] = true := by
  decide

/-- `j 0x100` -/
theorem test_j_corner : leaves (runWord .fault 0x08000000 [])
    [.pc 0x100] = true := by
  decide

/-- `jr r31` -/
theorem test_jr : leaves (runWord .fault 0x4BE00000 [.pc 0x114, .gpr 31 0x108])
    [.pc 0x108] = true := by
  decide

/-- `jr r2` -/
theorem test_jr_corner : leaves (runWord .fault 0x48400000 [.gpr 2 0xFFFFFFFC])
    [.pc 0xFFFFFFFC] = true := by
  decide

/-- `jal 0x110` -/
theorem test_jal : leaves (runWord .fault 0x0C00000C [.pc 0x104])
    [.gpr 31 0x108, .pc 0x110] = true := by
  decide

/-- `jal 0x100` -/
theorem test_jal_corner : leaves (runWord .fault 0x0FFFFFF8 [.pc 0x108, .gpr 31 0xDEAD])
    [.gpr 31 0x10C, .pc 0x100] = true := by
  decide

/-- `jalr r5` -/
theorem test_jalr : leaves (runWord .fault 0x4CA00000 [.gpr 5 0x200])
    [.gpr 31 0x104, .pc 0x200] = true := by
  decide

/-- `jalr r31` -/
theorem test_jalr_corner : leaves (runWord .fault 0x4FE00000 [.gpr 31 0x200])
    [.gpr 31 0x104, .pc 0x200] = true := by
  decide

/-- `trap 0` -/
theorem test_trap : leaves (runWord .fault 0x44000000 [])
    [.pc 0x100, .status .final] = true := by
  decide

/-- `trap 5` -/
theorem test_trap_corner : stopsWith (runWord .fault 0x44000005 []) (.unhandledTrap 5) = true := by
  decide

/-- `(rfe 0)` -/
theorem test_rfe : stopsWith (runWord .fault 0x40000000 []) (.notImplemented .rfe) = true := by
  decide

/-- `addd f2,f4,f6` -/
theorem test_addd : leaves (runWord .fault 0x04861004 [.fpr 4 0x3FF80000, .fpr 5 0x0, .fpr 6 0x40120000, .fpr 7 0x0])
    [.fpr 2 0x40180000, .fpr 3 0x0, .pc 0x104] = true := by
  decide

/-- `addd f2,f2,f2` -/
theorem test_addd_corner : leaves (runWord .fault 0x04421004 [.fpr 2 0x3FB99999, .fpr 3 0x9999999A])
    [.fpr 2 0x3FC99999, .pc 0x104] = true := by
  decide

/-- `addf f3,f2,f2` -/
theorem test_addf : leaves (runWord .fault 0x04421800 [.fpr 2 0x40400000])
    [.fpr 3 0x40C00000, .pc 0x104] = true := by
  decide

/-- `addf f1,f2,f3` -/
theorem test_addf_corner : leaves (runWord .fault 0x04430800 [.fpr 2 0x7F7FFFFF, .fpr 3 0x7F7FFFFF])
    [.fpr 1 0x7F800000, .pc 0x104] = true := by
  decide

/-- `subd f2,f4,f6` -/
theorem test_subd : leaves (runWord .fault 0x04861005 [.fpr 4 0x3FF80000, .fpr 5 0x0, .fpr 6 0x40120000, .fpr 7 0x0])
    [.fpr 2 0xC0080000, .fpr 3 0x0, .pc 0x104] = true := by
  decide

/-- `subf f1,f2,f3` -/
theorem test_subf : leaves (runWord .fault 0x04430801 [.fpr 2 0x40C00000, .fpr 3 0x3FC00000])
    [.fpr 1 0x40900000, .pc 0x104] = true := by
  decide

/-- `multd f2,f4,f6` -/
theorem test_multd : leaves (runWord .fault 0x04861006 [.fpr 4 0x3FF80000, .fpr 5 0x0, .fpr 6 0x40120000, .fpr 7 0x0])
    [.fpr 2 0x401B0000, .fpr 3 0x0, .pc 0x104] = true := by
  decide

/-- `multf f1,f2,f3` -/
theorem test_multf : leaves (runWord .fault 0x04430802 [.fpr 2 0x40C00000, .fpr 3 0x3FC00000])
    [.fpr 1 0x41100000, .pc 0x104] = true := by
  decide

/-- `multf f1,f2,f3` -/
theorem test_multf_corner : leaves (runWord .fault 0x04430802 [.fpr 2 0x80000000, .fpr 3 0x40000000])
    [.fpr 1 0x80000000, .pc 0x104] = true := by
  decide

/-- `divd f2,f4,f6` -/
theorem test_divd : leaves (runWord .fault 0x04861007 [.fpr 4 0x40120000, .fpr 5 0x0, .fpr 6 0x3FF80000, .fpr 7 0x0])
    [.fpr 2 0x40080000, .fpr 3 0x0, .pc 0x104] = true := by
  decide

/-- `divd f2,f4,f6` -/
theorem test_divd_corner : leaves (runWord .fault 0x04861007 [.fpr 4 0x3FF00000, .fpr 5 0x0, .fpr 6 0x40080000, .fpr 7 0x0])
    [.fpr 2 0x3FD55555, .fpr 3 0x55555555, .pc 0x104] = true := by
  decide

/-- `divf f1,f2,f3` -/
theorem test_divf : leaves (runWord .fault 0x04430803 [.fpr 2 0x40C00000, .fpr 3 0x3FC00000])
    [.fpr 1 0x40800000, .pc 0x104] = true := by
  decide

/-- `divf f1,f2,f3` -/
theorem test_divf_corner : leaves (runWord .fault 0x04430803 [.fpr 2 0xBF800000, .fpr 3 0x0])
    [.fpr 1 0xFF800000, .pc 0x104] = true := by
  decide

/-- `cvtf2d f4,f3` -/
theorem test_cvtf2d : leaves (runWord .fault 0x04602008 [.fpr 3 0x40C00000])
    [.fpr 4 0x40180000, .fpr 5 0x0, .pc 0x104] = true := by
  decide

/-- `cvtf2d f4,f4` -/
theorem test_cvtf2d_corner : leaves (runWord .fault 0x04802008 [.fpr 4 0x3DCCCCCD])
    [.fpr 4 0x3FB99999, .fpr 5 0xA0000000, .pc 0x104] = true := by
  decide

/-- `cvtd2f f1,f4` -/
theorem test_cvtd2f : leaves (runWord .fault 0x0480080A [.fpr 4 0x40180000, .fpr 5 0x0])
    [.fpr 1 0x40C00000, .pc 0x104] = true := by
  decide

/-- `cvtd2f f1,f4` -/
theorem test_cvtd2f_corner : leaves (runWord .fault 0x0480080A [.fpr 4 0x3FB99999, .fpr 5 0x9999999A])
    [.fpr 1 0x3DCCCCCD, .pc 0x104] = true := by
  decide

/-- `cvtf2i f6,f3` -/
theorem test_cvtf2i : leaves (runWord .fault 0x04603009 [.fpr 3 0x40C00000])
    [.fpr 6 0x6, .pc 0x104] = true := by
  decide

/-- `cvtf2i f6,f3` -/
theorem test_cvtf2i_corner : leaves (runWord .fault 0x04603009 [.fpr 3 0xCF000000])
    [.fpr 6 0x80000000, .pc 0x104] = true := by
  decide

/-- `cvti2f f2,f1` -/
theorem test_cvti2f : leaves (runWord .fault 0x0420100C [.fpr 1 0x3])
    [.fpr 2 0x40400000, .pc 0x104] = true := by
  decide

/-- `cvti2f f2,f1` -/
theorem test_cvti2f_corner : leaves (runWord .fault 0x0420100C [.fpr 1 0x0])
    [.fpr 2 0x0, .pc 0x104] = true := by
  decide

/-- `cvtd2i f1,f4` -/
theorem test_cvtd2i : leaves (runWord .fault 0x0480080B [.fpr 4 0xC01F9999, .fpr 5 0x9999999A])
    [.fpr 1 0xFFFFFFF9, .pc 0x104] = true := by
  decide

/-- `cvtd2i f1,f4` -/
theorem test_cvtd2i_corner : leaves (runWord .fault 0x0480080B [.fpr 4 0x41DFFFFF, .fpr 5 0xFFC00000])
    [.fpr 1 0x7FFFFFFF, .pc 0x104] = true := by
  decide

/-- `cvti2d f4,f1` -/
theorem test_cvti2d : leaves (runWord .fault 0x0420200D [.fpr 1 0x3])
    [.fpr 4 0x40080000, .fpr 5 0x0, .pc 0x104] = true := by
  decide

/-- `cvti2d f4,f1` -/
theorem test_cvti2d_corner : leaves (runWord .fault 0x0420200D [.fpr 1 0x1000001])
    [.fpr 4 0x41700000, .fpr 5 0x10000000, .pc 0x104] = true := by
  decide

/-- `eqd f2,f4` -/
theorem test_eqd : leaves (runWord .fault 0x04440018 [.fpr 2 0x3FF80000, .fpr 3 0x0, .fpr 4 0x40120000, .fpr 5 0x0])
    [.fpsrC false, .pc 0x104] = true := by
  decide

/-- `ned f2,f4` -/
theorem test_ned : leaves (runWord .fault 0x04440019 [.fpr 2 0x3FF80000, .fpr 3 0x0, .fpr 4 0x40120000, .fpr 5 0x0])
    [.fpsrC true, .pc 0x104] = true := by
  decide

/-- `ltd f2,f4` -/
theorem test_ltd : leaves (runWord .fault 0x0444001A [.fpr 2 0x3FF80000, .fpr 3 0x0, .fpr 4 0x40120000, .fpr 5 0x0])
    [.fpsrC true, .pc 0x104] = true := by
  decide

/-- `ltd f2,f4` -/
theorem test_ltd_corner : leaves (runWord .fault 0x0444001A [.fpr 2 0xFFF00000, .fpr 3 0x0, .fpr 4 0xFFE1CCF3, .fpr 5 0x85EBC8A0])
    [.fpsrC true, .pc 0x104] = true := by
  decide

/-- `gtd f2,f4` -/
theorem test_gtd : leaves (runWord .fault 0x0444001B [.fpr 2 0x3FF80000, .fpr 3 0x0, .fpr 4 0x40120000, .fpr 5 0x0])
    [.fpsrC false, .pc 0x104] = true := by
  decide

/-- `led f2,f4` -/
theorem test_led : leaves (runWord .fault 0x0444001C [.fpr 2 0x3FF80000, .fpr 3 0x0, .fpr 4 0x40120000, .fpr 5 0x0])
    [.fpsrC true, .pc 0x104] = true := by
  decide

/-- `ged f2,f4` -/
theorem test_ged : leaves (runWord .fault 0x0444001D [.fpr 2 0x3FF80000, .fpr 3 0x0, .fpr 4 0x40120000, .fpr 5 0x0])
    [.fpsrC false, .pc 0x104] = true := by
  decide

/-- `eqf f2,f3` -/
theorem test_eqf : leaves (runWord .fault 0x04430010 [.fpr 2 0x40400000, .fpr 3 0x40C00000])
    [.fpsrC false, .pc 0x104] = true := by
  decide

/-- `eqf f2,f3` -/
theorem test_eqf_corner : leaves (runWord .fault 0x04430010 [.fpr 2 0x7FC00000, .fpr 3 0x7FC00000, .fpsrC true])
    [.fpsrC false, .pc 0x104] = true := by
  decide

/-- `nef f2,f3` -/
theorem test_nef : leaves (runWord .fault 0x04430011 [.fpr 2 0x40400000, .fpr 3 0x40C00000])
    [.fpsrC true, .pc 0x104] = true := by
  decide

/-- `nef f2,f3` -/
theorem test_nef_corner : leaves (runWord .fault 0x04430011 [.fpr 2 0x7FC00000, .fpr 3 0x7FC00000])
    [.fpsrC true, .pc 0x104] = true := by
  decide

/-- `ltf f2,f3` -/
theorem test_ltf : leaves (runWord .fault 0x04430012 [.fpr 2 0x40400000, .fpr 3 0x40C00000])
    [.fpsrC true, .pc 0x104] = true := by
  decide

/-- `ltf f2,f3` -/
theorem test_ltf_corner : leaves (runWord .fault 0x04430012 [.fpr 2 0x7FC00000, .fpr 3 0x7FC00000, .fpsrC true])
    [.fpsrC false, .pc 0x104] = true := by
  decide

/-- `gtf f2,f3` -/
theorem test_gtf : leaves (runWord .fault 0x04430013 [.fpr 2 0x40400000, .fpr 3 0x40C00000])
    [.fpsrC false, .pc 0x104] = true := by
  decide

/-- `gtf f2,f3` -/
theorem test_gtf_corner : leaves (runWord .fault 0x04430013 [.fpr 2 0x7FC00000, .fpr 3 0x7FC00000, .fpsrC true])
    [.fpsrC false, .pc 0x104] = true := by
  decide

/-- `lef f2,f3` -/
theorem test_lef : leaves (runWord .fault 0x04430014 [.fpr 2 0x40400000, .fpr 3 0x40C00000])
    [.fpsrC true, .pc 0x104] = true := by
  decide

/-- `lef f2,f3` -/
theorem test_lef_corner : leaves (runWord .fault 0x04430014 [.fpr 2 0x7FC00000, .fpr 3 0x7FC00000, .fpsrC true])
    [.fpsrC false, .pc 0x104] = true := by
  decide

/-- `gef f2,f3` -/
theorem test_gef : leaves (runWord .fault 0x04430015 [.fpr 2 0x40400000, .fpr 3 0x40C00000])
    [.fpsrC false, .pc 0x104] = true := by
  decide

/-- `gef f2,f3` -/
theorem test_gef_corner : leaves (runWord .fault 0x04430015 [.fpr 2 0x7FC00000, .fpr 3 0x7FC00000, .fpsrC true])
    [.fpsrC false, .pc 0x104] = true := by
  decide

/-! ### Words that decode to nothing (30_encoding.md R105) -/

theorem test_unassigned_words : decodeWord 0xFFFFFFFF#32 = .error .unassigned ∧
    decodeWord 0x00000001#32 = .error .unassigned ∧ decodeWord 0x00430C20#32 = .error .unassigned ∧
    decodeWord 0x0400001E#32 = .error .unassigned ∧ decodeWord 0x54000000#32 = .error .unassigned ∧
    decodeWord 0x88000000#32 = .error .unassigned := by
  decide

theorem test_unused_fields : decodeWord 0x10010008#32 = .error .unusedField ∧
    decodeWord 0x4BE00004#32 = .error .unusedField ∧ decodeWord 0x3C210001#32 = .error .unusedField ∧
    decodeWord 0x00000800#32 = .error .unusedField ∧ decodeWord 0x00410832#32 = .error .unusedField ∧
    decodeWord 0x18200008#32 = .error .unusedField ∧ decodeWord 0x04430810#32 = .error .unusedField := by
  decide

theorem test_odd_pairs_do_not_decode : decodeWord 0x9C210008#32 = .error .oddPair ∧
    decodeWord 0x00601033#32 = .error .oddPair ∧ decodeWord 0x04440804#32 = .error .oddPair ∧
    decodeWord 0x04641004#32 = .error .oddPair ∧ decodeWord 0x04450018#32 = .error .oddPair := by
  decide

theorem test_truncated : decodeBytes [0#8, 0#8, 0#8] = .error .truncated := by decide

/-- The host's reading of a table word, and the word run as the first instruction after reset. -/
theorem test_table_word : decodeTableWord 32 0x015F1820 = some (.add 3 10 31) := by decide

theorem test_fetch_after_reset : stopsWith (step State.reset) (.fetchFault 0x100#32) = true := by decide

/-! ### The assembler: the example of 45_assembler.md R313, its image as R314 has it -/

/-- The example's data section. -/
def exampleData : String :=
  "                .data\nPrompt:         .asciiz  \"An integer value >1 : \"\nPrintfFormat:   .asciiz  " ++
  "\"Factorial = %g\\n\\n\"\n                .align   2\nPrintfPar:      .word    PrintfFormat\n" ++
  "PrintfValue:    .space   8\n"

/-- The example's text section, over a data section of two labels at their addresses (R314). -/
def exampleText : String :=
  ".data 0x1028\nPar: .word Par\nVal: .space 8\n.text\n.global main\nmain:\n;*** end\naddi r1,r0,#0x1000\n" ++
  "sd Val,f2\naddi r14,r0,Par\ntrap 5\ntrap 0\n"

/-- The bytes of an image from an address on. -/
def imageBytes (r : Except AsmError AsmImage) (a n : Nat) : List (Option Byte) :=
  match r with
  | .ok img => (List.range n).map (fun k => memLookup img.bytes (a + k))
  | .error _ => []

set_option maxRecDepth 8000 in
theorem test_example_data : let bs := imageBytes (assemble .default exampleData) 0x1000 45
    bs.length = 45 ∧ bs.take 5 = [some 0x41, some 0x6E, some 0x20, some 0x69, some 0x6E] ∧
    (bs.drop 20).take 5 = [some 0x3A, some 0x20, some 0x00, some 0x46, some 0x61] ∧
    bs.drop 36 = [some 0x67, some 0x0A, some 0x0A, some 0x00, some 0x00, some 0x00, some 0x10, some 0x17, none] := by
  decide

set_option maxRecDepth 8000 in
theorem test_example_text : let bs := imageBytes (assemble .default exampleText) 0x100 20
    bs = [some 0x20, some 0x01, some 0x10, some 0x00, some 0xBC, some 0x02, some 0x10, some 0x2C,
      some 0x20, some 0x0E, some 0x10, some 0x28, some 0x44, some 0x00, some 0x00, some 0x05,
      some 0x44, some 0x00, some 0x00, some 0x00] := by
  decide

/-- The error of assembling a text, if it is one. -/
def asmError (source : String) : Option AsmError :=
  match assemble .default source with
  | .ok _ => none
  | .error e => some e

theorem test_assembly_errors : asmError "beq r1,r2,loop" = some (.unknownName "beq") ∧
    asmError "addi r1,r0,#32768" = some (.outOfRange 32768) ∧ asmError "lw $5,32($3)" = some .malformedLine ∧
    asmError "ld f1,0(r0)" = some .oddPair ∧ asmError "j nowhere" = some (.undeclared "nowhere") ∧
    asmError "a: nop\na: nop" = some (.declaredTwice "a") ∧ asmError ".float 1" = some (.unknownName ".float") ∧
    asmError ".space 2\nnop" = some (.misalignedInstruction 0x102) ∧
    asmError "nop\n.text 0x100\nnop" = some (.placedTwice 0x100) := by
  decide

/-- `#` stands before immediates alone (R298), directives are in lower case (log 16), `.space` takes any size (R309). -/
theorem test_assembly_forms : asmError "lw r1,#4" = some .wrongOperands ∧ asmError "lw r1,4" = none ∧
    asmError "movi2s #fpsr,r1" = some .wrongOperands ∧ asmError "movi2s FPSR,r1" = none ∧
    asmError "trap #0" = none ∧ asmError ".DATA" = some (.unknownName ".DATA") ∧
    asmError ".space 0x200000000" = none ∧ asmError ".space -1" = some (.outOfRange (-1)) := by
  decide

/-- The parts of an image, the text at the given TEXT_BASE, the data at the given DATA_BASE (R290). -/
theorem test_image_parts : (assemble ⟨0x40, 0x80, .standard⟩ ".data\n.byte 7\n.text\nnop").toOption.map
    (fun img => (img.textPart, img.dataPart, img.text)) =
    some ([(0x40, 0#8), (0x41, 0#8), (0x42, 0#8), (0x43, 0#8)], [(0x80, 7#8)], [0x40]) := by
  decide

theorem test_double_literals : parseDouble "-1.5e-3".toList = some 0xBF589374BC6A7EFA#64 ∧
    parseDouble "0.1".toList = some 0x3FB999999999999A#64 ∧ parseDouble "6".toList = some 0x4018000000000000#64 := by
  decide

/-- The source's `0x10c: j 0x100` (30_encoding.md R97). -/
theorem test_jump_example : imageBytes (assemble .default ".text 0x10c\nj 0x100") 0x10C 4 =
    [some 0x0B, some 0xFF, some 0xFF, some 0xF4] := by
  decide

/-- A loaded program runs: `addi r1,r0,#5` at 0x100, from reset. -/
def loadedStep : Option Result :=
  match assemble .default "addi r1,r0,#5" with
  | .ok img => (State.reset.load img).map step
  | .error _ => none

theorem test_loaded_program_runs : (loadedStep.map (fun r => leaves r [.gpr 1 5, .pc 0x104])) = some true := by decide

/-! ### Witnesses: the hypotheses of each statement can be met -/

/-- Reset with a NOP at pc, some registers and the bytes 0x1000 .. 0x100F written. -/
def base : State := setUp .fault 0x00000000 [.gpr 1 0x1000, .gpr 2 0x7FFFFFFF, .gpr 3 1, .fpr 2 0x3F800000]

theorem base_text (a : Nat) (h : inRegions base.params.text a = true) :
    a = 0x100 ∨ a = 0x101 ∨ a = 0x102 ∨ a = 0x103 := by
  have ht : base.params.text = [⟨0x100, 4⟩] := by decide
  have h' : 0x100 ≤ a ∧ a < 0x104 := by simpa [ht, inRegions] using h
  omega

theorem base_inv : base.Inv where
  memory := by decide
  zero := by decide
  textMapped a h := by
    rcases base_text a h with rfl | rfl | rfl | rfl <;> decide
  textLoaded a h := by
    rcases base_text a h with rfl | rfl | rfl | rfl <;> decide

theorem base_steps : ∃ t, step base = .next t := ⟨_, rfl⟩

/-- An ENC with LB at op 0x15 and MULT at func 0x01E of its group, the other mnemonics where the default has them. -/
def otherEnc : Enc := .table (defaultCodes.map (fun c =>
  ⟨if c = .primary 0x20#6 then .primary 0x15#6
    else if c = .grouped 0x01#6 0x00E#11 then .grouped 0x01#6 0x01E#11 else c, c⟩))

set_option maxRecDepth 20000 in
theorem otherEnc_legal : encLegal otherEnc = true := by decide

/-- LB and MULT at their new numbers, nothing at the old one, and another instruction where it was. -/
theorem test_other_enc : decodeWith otherEnc 0x54220000#32 = .ok (.lb 2 1 0) ∧
    decodeWith otherEnc 0x0443081E#32 = .ok (.mult 1 2 3) ∧ decodeWith otherEnc 0x80220000#32 = .error .unassigned ∧
    decodeWith otherEnc 0x015F1820#32 = .ok (.add 3 10 31) ∧ encodeWith otherEnc (.lb 2 1 0) = some 0x54220000#32 := by
  decide

theorem witness_decode_of_encode : encLegal otherEnc = true ∧ encLegal .standard = true ∧
    (Instr.movd 30 0).wellFormed = true := ⟨otherEnc_legal, rfl, rfl⟩

theorem witness_encode_of_decode : encLegal otherEnc = true ∧
    decodeWith otherEnc 0xD7FFFFFF#32 = .ok (.sgeui 31 31 0xFFFF) := ⟨otherEnc_legal, by decide⟩

theorem witness_opcode_table : ⟨"LD", 0xFC010000, 0x9C000000⟩ ∈ opcodeRows ∧
    0x9FFEFFFF#32 &&& 0xFC010000#32 = 0x9C000000#32 :=
  ⟨List.mem_of_getElem? (i := 6) rfl, by decide⟩

theorem witness_step_runs : base.status = .running ∧ base.pc.toNat % 4 = 0 ∧
    (∀ k < 4, inRegions base.params.text (base.pc.toNat + k) = true) ∧
    (∀ k < 4, base.readByte (base.pc.toNat + k) = [0#8, 0#8, 0#8, 0#8][k]?) ∧
    decodeBytesWith base.params.enc [0#8, 0#8, 0#8, 0#8] = .ok (.nop, []) := by
  decide

theorem witness_fetch_misaligned : (base.jump 0x101).status = .running ∧ (base.jump 0x101).pc.toNat % 4 ≠ 0 := by
  decide

theorem witness_fetch_outside : (base.jump 0x104).pc.toNat % 4 = 0 ∧
    ∃ k < 4, inRegions (base.jump 0x104).params.text ((base.jump 0x104).pc.toNat + k) = false :=
  ⟨by decide, 0, by decide, by decide⟩

theorem witness_fetch_illegal : let s := setUp .fault 0xFFFFFFFF []
    s.status = .running ∧ s.pc.toNat % 4 = 0 ∧ (∀ k < 4, inRegions s.params.text (s.pc.toNat + k) = true) ∧
    (∀ k < 4, s.readByte (s.pc.toNat + k) = [0xFF#8, 0xFF#8, 0xFF#8, 0xFF#8][k]?) ∧
    decodeWith s.params.enc (0xFF#8 ++ 0xFF#8 ++ 0xFF#8 ++ 0xFF#8 : Word) = .error .unassigned := by
  decide

theorem witness_endless_loop : let s := setUp .fault 0x08000000 []
    s.status = .running ∧ encLegal s.params.enc = true ∧ s.pc.toNat % 4 = 0 ∧
    (∀ k < 4, inRegions s.params.text (s.pc.toNat + k) = true) ∧
    ∀ k < 4, s.readByte (s.pc.toNat + k) = [0x08#8, 0x00#8, 0x00#8, 0x00#8][k]? := by
  decide

/-- The same under an ENC that is not the default. -/
theorem witness_endless_loop_other_enc : let s := setUp .fault 0x08000000 []
    let t : State := { s with params := { s.params with enc := otherEnc } }
    t.status = .running ∧ encLegal t.params.enc = true ∧ t.pc.toNat % 4 = 0 ∧
    (∀ k < 4, inRegions t.params.text (t.pc.toNat + k) = true) ∧
    ∀ k < 4, t.readByte (t.pc.toNat + k) = [0x08#8, 0x00#8, 0x00#8, 0x00#8][k]? :=
  ⟨by decide, otherEnc_legal, by decide, by decide, by decide⟩

theorem witness_stopped_states : (base.setStatus .final).status ≠ .running ∧
    (base.stopped .divideByZero).status ≠ .running := by
  decide

theorem witness_faults : exec (.divu 4 2 0) base = .fault .divideByZero ∧
    exec (.trap 5) base = .fault (.unhandledTrap 5) ∧
    exec (.sw 1 1 2) base = .fault (.addressMisaligned 0x1001 4) ∧
    exec (.rfe 0) base = .fault (.notImplemented .rfe) :=
  ⟨rfl, rfl, rfl, rfl⟩

theorem witness_step_keeps_the_invariant : base.Inv ∧ ∃ t, step base = .next t := ⟨base_inv, base_steps⟩

/-- The boundaries of an access of 8 bytes: the last mapped address, one past it, one misaligned, one unwritten. -/
theorem witness_mem_read : Mapped base 0x7FF8#32 8 ∧ ¬Mapped base 0x8000#32 8 ∧ (0x7FFC#32).toNat % 8 ≠ 0 ∧
    base.readByte 0x7FF8 = none ∧ base.readByte 0x1008 = some 0x40 ∧
    (∀ k < 8, base.readByte (0x1008 + k) = [0x40#8, 0x18#8, 0#8, 0#8, 0#8, 0#8, 0#8, 0#8][k]?) ∧
    Mapped base 0x1008#32 8 := by
  unfold Mapped
  decide

/-- A state whose UNWRITTEN_READ is any. -/
theorem witness_unwritten_any : ({ base with params := { base.params with unwrittenRead := .any } } :
    State).params.unwrittenRead = .any := rfl

theorem base_storable : Storable base 0x7FF8#32 8 ∧ Storable base 0x7FFC#32 4 ∧ Storable base 0x7FFE#32 2 ∧
    Storable base 0x7FFF#32 1 := by
  refine ⟨⟨by decide, ?_, ?_⟩, ⟨by decide, ?_, ?_⟩, ⟨by decide, ?_, ?_⟩, ⟨by decide, ?_, ?_⟩⟩ <;>
    first | unfold Mapped; decide | unfold OutsideText; decide

theorem witness_mem_write : Memory.wf base.params.unwrittenRead base.mem = true ∧ Storable base 0x7FF8#32 8 ∧
    Mapped base 0x100#32 8 ∧ ¬OutsideText base 0x100#32 8 ∧ OutsideText base 0x108#32 8 ∧ ¬Mapped base 0x8000#32 1 := by
  refine ⟨by decide, base_storable.1, ?_, ?_, ?_, ?_⟩ <;>
    first | unfold Mapped; decide | unfold OutsideText; decide

/-- After SW of R2 at 0x1000, the byte at ea + 3, the halfword at ea + 2 and the word at ea. -/
theorem witness_mixed_widths : ∃ t, exec (.sw 1 0 2) base = .next t ∧
    effectiveAddress t 1 3 = effectiveAddress base 1 0 + BitVec.ofNat 32 3 ∧
    effectiveAddress t 1 2 = effectiveAddress base 1 0 + BitVec.ofNat 32 (2 * 1) ∧
    effectiveAddress t 1 0 = effectiveAddress base 1 0 := ⟨_, rfl, by decide, by decide, by decide⟩

/-- After SW of R2 at 0x1000 the LD there sees its four bytes and the four after them as before; after SB of R2 at
0x1001 the LH at 0x1000 sees the old byte and the new. -/
theorem witness_wider_load : ∃ t, exec (.sw 1 0 2) base = .next t ∧ storeAccess (.sw 1 0 2) = some (1, 0, 4) ∧
    loadAccess (.ld 4 1 0) = some (1, 0, 8) ∧ (effectiveAddress t 1 0).toNat % 8 = 0 ∧
    Mapped t (effectiveAddress t 1 0) 8 ∧ storedBytes base (.sw 1 0 2) = [0x7F#8, 0xFF#8, 0xFF#8, 0xFF#8] ∧
    ∀ k < 8, [0x7F#8, 0xFF#8, 0xFF#8, 0xFF#8, 0x12#8, 0x34#8, 0x56#8, 0x78#8][k]? =
      if 0x1000 ≤ (effectiveAddress t 1 0).toNat + k ∧ (effectiveAddress t 1 0).toNat + k < 0x1000 + 4 then
        (storedBytes base (.sw 1 0 2))[(effectiveAddress t 1 0).toNat + k - 0x1000]?
      else base.readByte ((effectiveAddress t 1 0).toNat + k) := by
  refine ⟨_, rfl, rfl, rfl, ?_⟩
  unfold Mapped
  decide

theorem witness_narrower_store : ∃ t, exec (.sb 1 1 2) base = .next t ∧ (effectiveAddress t 1 0).toNat = 0x1000 ∧
    storedBytes base (.sb 1 1 2) = [0xFF#8] ∧ base.readByte 0x1000 = some 0x80#8 := ⟨_, rfl, by decide⟩

theorem witness_mixed_doubles : ∃ t, exec (.sd 1 8 2) base = .next t ∧
    effectiveAddress t 1 8 = effectiveAddress base 1 8 ∧
    effectiveAddress t 1 12 = effectiveAddress base 1 8 + 4#32 := ⟨_, rfl, by decide, by decide⟩

theorem witness_narrow_loads : Loadable base (effectiveAddress base 1 15) [0x00] ∧
    Loadable base (effectiveAddress base 1 0) [0x80, 0xFF] := by
  refine ⟨⟨by decide, ?_, by decide⟩, ⟨by decide, ?_, by decide⟩⟩ <;> (unfold Mapped; decide)

theorem witness_wide_loads : Loadable base (effectiveAddress base 1 4) [0x12, 0x34, 0x56, 0x78] ∧
    Loadable base (effectiveAddress base 1 8) [0x40, 0x18, 0, 0, 0, 0, 0, 0] := by
  refine ⟨⟨by decide, ?_, by decide⟩, ⟨by decide, ?_, by decide⟩⟩ <;> (unfold Mapped; decide)

theorem witness_load_misaligned : loadAccess (.ld 2 1 4) = some (1, 4, 8) ∧
    (effectiveAddress base 1 4).toNat % 8 ≠ 0 := by
  decide

theorem witness_load_unmapped : loadAccess (.lb 2 0 0x8000) = some (0, 0x8000, 1) ∧
    (effectiveAddress base 0 0x8000).toNat % 1 = 0 ∧ ¬Mapped base (effectiveAddress base 0 0x8000) 1 := by
  unfold Mapped
  decide

theorem witness_load_unwritten : loadAccess (.lh 2 1 0x10) = some (1, 0x10, 2) ∧
    (effectiveAddress base 1 0x10).toNat % 2 = 0 ∧ Mapped base (effectiveAddress base 1 0x10) 2 ∧
    base.readByte ((effectiveAddress base 1 0x10).toNat + 0) = none ∧
    ∀ j < 0, base.readByte ((effectiveAddress base 1 0x10).toNat + j) ≠ none := by
  unfold Mapped
  decide

theorem witness_stores : Memory.wf base.params.unwrittenRead base.mem = true ∧
    effectiveAddress base 0 0x7FFF = 0x7FFF#32 ∧ effectiveAddress base 0 0x7FFE = 0x7FFE#32 ∧
    effectiveAddress base 0 0x7FFC = 0x7FFC#32 ∧ effectiveAddress base 0 0x7FF8 = 0x7FF8#32 := by
  decide

theorem witness_store_faults : storeAccess (.sd 0 0x7FFC 2) = some (0, 0x7FFC, 8) ∧
    (effectiveAddress base 0 0x7FFC).toNat % 8 ≠ 0 ∧
    storeAccess (.sb 0 0x8000 2) = some (0, 0x8000, 1) ∧ ¬Mapped base (effectiveAddress base 0 0x8000) 1 ∧
    storeAccess (.sb 0 0x103 2) = some (0, 0x103, 1) ∧ Mapped base (effectiveAddress base 0 0x103) 1 ∧
    ¬OutsideText base (effectiveAddress base 0 0x103) 1 := by
  unfold Mapped OutsideText
  decide

/-- A state whose OVF_POLICY is wrap. -/
def wrapping : State := setUp .wrap 0x00000000 [.gpr 2 0x80000000, .gpr 3 0xFFFFFFFF]

/-- The largest sum and product that fit, the least difference, and the policy wrap. -/
theorem witness_signed_arithmetic : (base.gpr 2).toInt + (base.gpr 0).toInt = 2 ^ 31 - 1 ∧
    (base.gpr 0).toInt + (0x8000#16).toInt = -2 ^ 15 ∧ (base.gpr 0).toInt - (base.gpr 2).toInt = -2 ^ 31 + 1 ∧
    (base.gpr 0).toInt - (0x8000#16).toInt = 2 ^ 15 ∧ (base.gpr 2).toInt * (base.gpr 3).toInt = 2 ^ 31 - 1 ∧
    wrapping.params.ovfPolicy = .wrap := by
  decide

/-- One past what fits. -/
theorem witness_signed_overflow : base.params.ovfPolicy = .fault ∧
    2 ^ 31 - 1 < (base.gpr 2).toInt + (base.gpr 3).toInt ∧ 2 ^ 31 - 1 < (base.gpr 2).toInt + (1#16).toInt ∧
    2 ^ 31 - 1 < (base.gpr 2).toInt - (-1) ∧ 2 ^ 31 - 1 < (base.gpr 2).toInt - (0xFFFF#16).toInt ∧
    2 ^ 31 - 1 < (base.gpr 2).toInt * (base.gpr 1).toInt := by
  decide

theorem witness_subtraction_overflow : let s := setUp .fault 0 [.gpr 2 0x80000000, .gpr 3 1]
    s.params.ovfPolicy = .fault ∧ (s.gpr 2).toInt - (s.gpr 3).toInt < -2 ^ 31 := by
  decide

theorem witness_signed_and_unsigned_agree : (∃ t, exec (.add 4 2 0) base = .next t) ∧
    (∃ t, exec (.sub 4 2 3) base = .next t) ∧ ∃ t, exec (.mult 4 2 3) base = .next t :=
  ⟨⟨_, rfl⟩, ⟨_, rfl⟩, ⟨_, rfl⟩⟩

theorem witness_division : base.gpr 0 = 0#32 ∧ base.gpr 3 ≠ 0#32 ∧
    ¬(base.gpr 2 = 0x80000000#32 ∧ base.gpr 3 = 0xFFFFFFFF#32) ∧
    wrapping.gpr 2 = 0x80000000#32 ∧ wrapping.gpr 3 = 0xFFFFFFFF#32 ∧ wrapping.params.ovfPolicy = .wrap := by
  decide

theorem witness_division_overflow : let s := setUp .fault 0 [.gpr 2 0x80000000, .gpr 3 0xFFFFFFFF]
    s.gpr 3 ≠ 0#32 ∧ s.gpr 2 = 0x80000000#32 ∧ s.gpr 3 = 0xFFFFFFFF#32 ∧ s.params.ovfPolicy = .fault := by
  decide

theorem witness_other_traps : (1#26 ≠ 0#26 ∧ 0x3FFFFFF#26 ≠ 0#26) ∧ base.params.trapHandler = .undefined ∧
    ({ base with params := { base.params with trapHandler := .host } } : State).params.trapHandler = .host := by
  decide

theorem witness_conversions : cvtS2I 0xC0FCCCCD#32 = some 0xFFFFFFF9#32 ∧
    cvtD2I 0xC1E0000000000000#64 = some 0x80000000#32 := by
  decide

theorem witness_finite_values : (FpValue.finite true 0 0).isFinite = true ∧ (valueS 0x7F7FFFFF#32).isFinite = true ∧
    (valueD 0x0000000000000001#64).isFinite = true ∧ (FpValue.inf true).isFinite = false := by
  decide

theorem witness_rounding : (binary32 = binary32 ∨ binary32 = binary64) ∧ 0 < 1 ∧ 0 < 3 := by decide

theorem witness_divisors : (valueS 0x3F800000#32).isFinite = true ∧ (valueS 0x3F800000#32).toRat ≠ 0 ∧
    (valueD 0x3FF0000000000000#64).isFinite = true ∧ (valueD 0x3FF0000000000000#64).toRat ≠ 0 := by
  have h : valueS 0x3F800000#32 = .finite false 8388608 (-23) := by decide
  have h' : valueD 0x3FF0000000000000#64 = .finite false 4503599627370496 (-52) := by decide
  rw [h, h']
  norm_num [FpValue.isFinite, FpValue.toRat]

theorem witness_special_operands : (binary64 = binary32 ∨ binary64 = binary64) ∧ (1 : Nat) ≠ 0 ∧
    (FpValue.finite true 3 1).toRat + (FpValue.finite false 3 1).toRat = 0 ∧
    (FpValue.finite true 0 1).toRat - (FpValue.finite false 0 2).toRat = 0 := by
  norm_num [FpValue.toRat]

theorem witness_single_to_double : valueS 0x00000001#32 ≠ .nan ∧ valueS 0xFF800000#32 ≠ .nan := by decide

/-- 1.5 truncates to 1, and -2^31 - 1/2 to -2^31. -/
theorem witness_special_patterns : valueS 0xFF800000#32 = .inf true ∧ valueS 0x7F800000#32 = .inf false ∧
    valueS 0x80000000#32 = .finite true 0 (-149) ∧ valueS 0x7FC00000#32 = .nan ∧
    valueD 0xFFF0000000000000#64 = .inf true ∧ valueD 0#64 = .finite false 0 (-1074) ∧
    valueD 0x7FF0000000000001#64 = .nan := by
  decide

/-- Each order of a number, a zero of either sign, an infinity and a NaN: the left operand comes first. -/
theorem test_compare_patterns : fcmpS .lt 0x3F800000#32 0x40000000#32 = true ∧
    fcmpS .lt 0x40000000#32 0x3F800000#32 = false ∧ fcmpS .eq 0x80000000#32 0#32 = true ∧
    fcmpD .lt 0xFFF0000000000000#64 0#64 = true ∧ fcmpD .gt 0xFFF0000000000000#64 0#64 = false ∧
    fcmpD .ne 0x7FF0000000000001#64 0x7FF0000000000001#64 = true := by
  decide

theorem witness_compare_patterns : (valueS 0x7FC00000#32).extended = none ∧
    (valueS 0xFF800000#32).extended = some ⊥ := by
  have hn : valueS 0x7FC00000#32 = .nan := by decide
  have hi : valueS 0xFF800000#32 = .inf true := by decide
  rw [hn, hi]
  exact ⟨rfl, rfl⟩

theorem witness_truncation : (FpValue.finite false 3 (-1)).isFinite = true ∧
    |((1 : Int) : ℚ)| ≤ |(FpValue.finite false 3 (-1)).toRat| ∧
    |(FpValue.finite false 3 (-1)).toRat| < |((1 : Int) : ℚ)| + 1 ∧
    0 ≤ ((1 : Int) : ℚ) * (FpValue.finite false 3 (-1)).toRat := by
  refine ⟨rfl, ?_⟩
  simp only [FpValue.toRat]
  norm_num [abs_of_pos]

theorem witness_conversions_to_single : (0#32).toInt = 0 ∧ (valueD 0x3690000000000000#64).isFinite = true ∧
    valueD 0x8000000000000000#64 = .finite true 0 (-1074) ∧ valueD 0xFFF0000000000000#64 = .inf true ∧
    valueD 0x7FF0000000000001#64 = .nan := by
  decide

/-- 2^-150 is half of the least single subnormal and rounds to zero, the next double up rounds to that subnormal
(44_floating_point.md R254). -/
theorem test_narrowing_underflow : cvtD2S 0x3690000000000000#64 = some 0#32 ∧
    cvtD2S 0x3690000000000001#64 = some 1#32 ∧ cvtD2S 0xB690000000000000#64 = some 0x80000000#32 := by
  decide

theorem witness_nan : valueS 0x7F800001#32 = .nan ∧ valueD 0xFFFFFFFFFFFFFFFF#64 = .nan := by decide

theorem witness_only_compares : isCompare (.add 4 3 3) = false ∧ isTrap (.add 4 3 3) = false ∧
    ∃ t, exec (.add 4 3 3) base = .next t := ⟨rfl, rfl, _, rfl⟩

theorem witness_trap_zero_under_no_handler : isCompare (.trap 0) = false ∧ base.params.trapHandler = .undefined ∧
    ∃ t, exec (.trap 0) base = .next t := ⟨rfl, rfl, _, rfl⟩

theorem witness_only_stores : storeAccess (.lw 4 1 0) = none ∧ (∃ t, exec (.lw 4 1 0) base = .next t) ∧
    storeAccess (.sb 0 0x7FFF 2) = some (0, 0x7FFF, 1) ∧ ∃ t, exec (.sb 0 0x7FFF 2) base = .next t :=
  ⟨rfl, ⟨_, rfl⟩, rfl, _, rfl⟩

theorem witness_only_destinations : (∃ t, exec (.jalr 1) base = .next t) ∧ gprDest (.jalr 1) ≠ some 30#5 ∧
    (∃ t, exec (.ld 30 1 8) base = .next t) ∧ 29#5 ∉ fprDests (.ld 30 1 8) :=
  ⟨⟨_, rfl⟩, by decide, ⟨_, rfl⟩, by decide⟩

theorem witness_text_is_immutable : base.Inv ∧ base.params.trapHandler = .undefined ∧ (∃ t, step base = .next t) ∧
    inRegions base.params.text 0x103 = true := ⟨base_inv, rfl, base_steps, rfl⟩

theorem witness_end_of_run : ∃ t, step (setUp .fault 0x44000000 []) = .next t ∧ t.status = .final := ⟨_, rfl, rfl⟩

theorem witness_memory_does_not_matter : loadAccess (.div 4 2 0) = none ∧ storeAccess (.div 4 2 0) = none ∧
    isTrap (.div 4 2 0) = false ∧ exec (.div 4 2 0) base = .fault .divideByZero ∧
    ∃ t, exec (.div 4 2 3) base = .next t := ⟨rfl, rfl, rfl, rfl, _, rfl⟩

theorem witness_writes_to_r_zero : (∃ t, exec (.lw 0 1 4) base = .next t) ∧ gprDest (.lw 0 1 4) = some 0#5 ∧
    exec (.add 0 2 3) base = .fault .integerOverflow := ⟨⟨_, rfl⟩, rfl, rfl⟩

/-- One instruction, placed at 0x200. -/
def oneLine : List AsmLine := [⟨none, some (.directive (.text (some 0x200)))⟩, ⟨none, some (.instruction "nop" [])⟩]

theorem witness_loading : ∃ img, assembleLines .default oneLine = .ok img ∧ img.fits base = true ∧
    img.fits { base with params := { base.params with memMap := [] } } = false := ⟨_, rfl, by decide, by decide⟩

theorem witness_unmapped_inv : ({ State.reset with params := { State.reset.params with memMap := [] } } : State).Inv where
  memory := by decide
  zero := by decide
  textMapped a h := by cases h
  textLoaded a h := by cases h

theorem witness_assembled : ∃ bs, (AsmStatement.instruction "addi" [.gpr 1, .gpr 0, .hashed (.number (-32768))]).bytes
    .standard [] 0x100 = .ok (bs, true) ∧ encLegal .standard = true := ⟨_, rfl, rfl⟩

end Sys2Proof.Tests
end

section
/-! PROOFS. The state of the machine (10_state.md): reset, the invariant, what each instruction leaves as it was, and
the load of an assembled image. -/

namespace Sys2Proof.Machine

open Sys2Proof.Config

/-! ### One step (70_reset_and_hazards.md R357) -/

/-- A next state comes from an instruction, fetched at pc while running. -/
theorem step_next_iff (s t : State) :
    step s = .next t ↔ s.status = .running ∧ ∃ i, s.fetchInstr = .ok i ∧ exec i s = .next t := by
  unfold step
  cases hs : s.status with
  | running =>
    cases hi : s.fetchInstr with
    | ok i => simp
    | error f => simp [raise]
  | final => simp
  | faulted f => simp

/-- A stopped state has no step (10_state.md R45). -/
theorem step_of_not_running {s : State} (h : s.status ≠ .running) : step s = .refused .notRunning := by
  unfold step
  cases hs : s.status with
  | running => exact absurd hs h
  | final => rfl
  | faulted f => rfl

/-- Settles O8, by the three run statuses. -/
theorem stoppedStatesAreNotLeft : Obligations.stopped_states_are_not_left :=
  fun _ h => step_of_not_running h

/-! ### Reset (10_state.md R46) -/

/-- Nothing is listed after reset, so each byte reads as an unlisted one. -/
theorem readByte_resetWith (p : Params) (a : Nat) :
    (State.resetWith p).readByte a = unlistedByte p.unwrittenRead a := rfl

/-- No address lies in an empty TEXT. -/
theorem inRegions_nil (a : Nat) : inRegions [] a = false := rfl

/-- Reset under parameters with no TEXT meets the invariant. -/
theorem State.resetWith_inv {p : Params} (h : p.text = []) : (State.resetWith p).Inv where
  memory := rfl
  zero := rfl
  textMapped a ha := by simp [h, inRegions_nil] at ha
  textLoaded a ha := by simp [h, inRegions_nil] at ha

/-- Settles O10: the fields of reset are those of its definition. -/
theorem resetValues : Obligations.reset_values := by
  have hreset : ∀ p : Params, (State.resetWith p).gpr 0#5 = 0#32 ∧ (State.resetWith p).status = .running ∧
      (State.resetWith p).pc = p.entry ∧ (State.resetWith p).params = p ∧
      ∀ a, (State.resetWith p).readByte a = unlistedByte p.unwrittenRead a :=
    fun p => ⟨State.gpr_zero _, State.resetWith_status p, State.resetWith_pc p, State.resetWith_params p,
      readByte_resetWith p⟩
  exact ⟨hreset, rfl, rfl, rfl, rfl, rfl, rfl, rfl, rfl, readByte_resetWith Params.default⟩

/-- Settles O11: the default parameters have no TEXT. -/
theorem resetMeetsTheInvariant : Obligations.reset_meets_the_invariant :=
  State.resetWith_inv (p := Params.default) rfl

/-! ### What keeps the invariant -/

/-- A byte reads by memory and the parameters alone. -/
theorem readByte_congr {s t : State} (hm : t.mem = s.mem) (hp : t.params = s.params) (a : Nat) :
    t.readByte a = s.readByte a := by
  unfold State.readByte
  rw [hm, hp]

section Invariant

variable {i : Instr} {s t : State}

/-- The invariant speaks of R0's storage, memory and the parameters alone. -/
theorem State.Inv.of_eq (h : s.Inv) (hx : t.x[0] = s.x[0]) (hm : t.mem = s.mem) (hp : t.params = s.params) :
    t.Inv where
  memory := by rw [hm, hp]; exact h.memory
  zero := hx.trans h.zero
  textMapped := by rw [hp]; exact h.textMapped
  textLoaded a ha := by
    rw [readByte_congr hm hp]
    exact h.textLoaded a (hp ▸ ha)

/-- A write of any byte of the address space keeps the invariant: a written byte has a value, of TEXT or not. -/
theorem State.Inv.writeByte (h : s.Inv) {a : Nat} (ha : a < 2 ^ 32) (v : Byte) : (s.writeByte a v).Inv where
  memory := writeByte_wf v ha h.memory
  zero := h.zero
  textMapped := h.textMapped
  textLoaded b hb := by
    rw [readByte_writeByte (Memory.wf_rising h.memory)]
    split
    · rfl
    · exact h.textLoaded b hb

/-- A write of bytes inside the address space keeps the invariant. -/
theorem State.Inv.writeBytes (h : s.Inv) {a : Nat} (bs : List Byte) (ha : a + bs.length ≤ 2 ^ 32) :
    (s.writeBytes a bs).Inv := by
  induction bs generalizing s a with
  | nil => exact h
  | cons b bs ih =>
    rw [List.length_cons] at ha
    exact ih (h.writeByte (by omega) b) (by omega)

/-- A store keeps the invariant: its checks (20_memory.md R64) keep its bytes inside the address space. -/
theorem State.Inv.memWrite (h : s.Inv) {addr : Word} {bs : List Byte} (hw : s.memWrite addr bs = .ok t) : t.Inv := by
  obtain ⟨hcheck, -, rfl⟩ := (memWrite_ok_iff ..).mp hw
  obtain ⟨-, -, hend⟩ := (checkAccess_ok_iff ..).mp hcheck
  exact h.writeBytes bs hend

/-- One change by the host's trap function keeps the invariant. -/
theorem State.Inv.applyHost (h : s.Inv) (c : HostChange) : (s.applyHost c).Inv := by
  cases c with
  | gpr r v => exact h.of_eq (setGpr_slot_zero s r v) rfl rfl
  | fpr r v => exact h.of_eq rfl rfl rfl
  | fpsrC c => exact h.of_eq rfl rfl rfl
  | pc v => exact h.of_eq rfl rfl rfl
  | memByte a v => exact h.writeByte a.isLt v
  | status st => exact h.of_eq rfl rfl rfl

/-- All its changes keep the invariant. -/
theorem State.Inv.applyHostAll (h : s.Inv) (cs : List HostChange) : (s.applyHostAll cs).Inv := by
  induction cs generalizing s with
  | nil => exact h
  | cons c cs ih => exact ih (h.applyHost c)

/-- Whatever an instruction does keeps the invariant. -/
theorem Effect.inv (e : Effect i s t) (h : s.Inv) : t.Inv := by
  cases e with
  | gpr rd v => exact h.of_eq (setGpr_slot_zero s rd v) rfl rfl
  | fpr => exact h.of_eq rfl rfl rfl
  | fprDraw => exact h.of_eq rfl rfl rfl
  | dbl => exact h.of_eq rfl rfl rfl
  | dblDraw => exact h.of_eq rfl rfl rfl
  | compare => exact h.of_eq rfl rfl rfl
  | store _ _ _ _ _ hw => exact (h.memWrite hw).of_eq rfl rfl rfl
  | jump => exact h.of_eq rfl rfl rfl
  | link => exact h.of_eq (setGpr_slot_zero s linkReg _) rfl rfl
  | final => exact h.of_eq rfl rfl rfl
  | host cs =>
    have hadvance : s.advance.Inv := h.of_eq rfl rfl rfl
    exact (hadvance.applyHostAll cs).of_eq rfl rfl rfl

end Invariant

/-- Settles O12, by what an instruction can do to the state. -/
theorem stepKeepsTheInvariant : Obligations.step_keeps_the_invariant := by
  intro s t h hstep
  obtain ⟨-, i, -, hexec⟩ := (step_next_iff s t).mp hstep
  exact (exec_effect hexec).inv h

/-! ### What an instruction leaves as it was -/

section Unchanged

variable {i : Instr} {s t : State}

/-- A store that passes its checks writes its bytes (20_memory.md R64). -/
theorem memWrite_eq_writeBytes {addr : Word} {bs : List Byte} (hw : s.memWrite addr bs = .ok t) :
    t = s.writeBytes addr.toNat bs := by
  obtain ⟨-, -, rfl⟩ := (memWrite_ok_iff ..).mp hw
  rfl

/-- Whatever an instruction does leaves the parameters of the run (10_state.md R44). -/
theorem Effect.params_eq (e : Effect i s t) : t.params = s.params := by
  cases e with
  | store _ _ _ _ _ hw =>
    obtain rfl := memWrite_eq_writeBytes hw
    simp
  | host cs => simp
  | _ => rfl

/-- The host's trap function has no part in an instruction that is no TRAP, nor in a run without one. -/
theorem not_host (hno : isTrap i = false ∨ s.params.trapHandler = .undefined) :
    ¬(isTrap i = true ∧ s.params.trapHandler = .host) := by
  rintro ⟨htrap, hhost⟩
  rcases hno with h | h
  · simp [htrap] at h
  · simp [hhost] at h

/-- Without the host, only a compare changes fpsr.c (10_state.md R42). -/
theorem Effect.fpsrC_eq (e : Effect i s t) (hno : isTrap i = false ∨ s.params.trapHandler = .undefined)
    (hc : isCompare i = false) : t.fpsrC = s.fpsrC := by
  cases e with
  | compare c h => simp [hc] at h
  | store _ _ _ _ _ hw =>
    obtain rfl := memWrite_eq_writeBytes hw
    simp
  | host cs h hp => exact absurd ⟨h, hp⟩ (not_host hno)
  | _ => rfl

/-- Without the host, a general register that is not the destination reads as before (10_state.md R32). -/
theorem Effect.gpr_eq (e : Effect i s t) (hno : isTrap i = false ∨ s.params.trapHandler = .undefined) {q : GReg}
    (hq : gprDest i ≠ some q) : t.gpr q = s.gpr q := by
  cases e with
  | gpr rd v h =>
    have hne : q ≠ rd := fun heq => hq (heq ▸ h)
    exact State.gpr_setGpr_of_ne s v hne
  | link target h =>
    have hne : q ≠ linkReg := fun heq => hq (heq ▸ h)
    exact State.gpr_setGpr_of_ne s _ hne
  | store _ _ _ _ _ hw =>
    obtain rfl := memWrite_eq_writeBytes hw
    simp
  | host cs h hp => exact absurd ⟨h, hp⟩ (not_host hno)
  | _ => rfl

/-- Without the host, a floating-point register that is not among the destinations reads as before (10_state.md
R39). -/
theorem Effect.fpr_eq (e : Effect i s t) (hno : isTrap i = false ∨ s.params.trapHandler = .undefined) {q : FReg}
    (hq : q ∉ fprDests i) : t.fpr q = s.fpr q := by
  cases e with
  | fpr rd v h =>
    rw [h, List.mem_singleton] at hq
    exact State.fpr_setFpr_of_ne s v hq
  | fprDraw rd v h =>
    rw [h, List.mem_singleton] at hq
    exact State.fpr_setFpr_of_ne s.nextDraw v hq
  | dbl rd v h =>
    rw [h, List.mem_pair, not_or] at hq
    exact (dblResult_setDbl rd v s).others q hq.1 hq.2
  | dblDraw rd v h =>
    rw [h, List.mem_pair, not_or] at hq
    exact (dblResult_setDbl_draw rd v s).others q hq.1 hq.2
  | store _ _ _ _ _ hw =>
    obtain rfl := memWrite_eq_writeBytes hw
    simp
  | host cs h hp => exact absurd ⟨h, hp⟩ (not_host hno)
  | _ => rfl

end Unchanged

/-- Settles O55, by what an instruction can do to the state. -/
theorem parametersNeverChange : Obligations.parameters_never_change := by
  intro s t hstep
  obtain ⟨-, i, -, hexec⟩ := (step_next_iff s t).mp hstep
  exact (exec_effect hexec).params_eq

/-- Settles O51, by what an instruction can do to the state. -/
theorem onlyComparesWriteFpsr : Obligations.only_compares_write_fpsr :=
  fun _ _ _ hexec hc hno => (exec_effect hexec).fpsrC_eq hno hc

/-- Settles O53, by what an instruction can do to the state. -/
theorem onlyDestinationsChange : Obligations.only_destinations_change := by
  intro i s t hexec hno
  have heffect := exec_effect hexec
  exact ⟨fun _ hq => heffect.gpr_eq hno hq, fun _ hq => heffect.fpr_eq hno hq⟩

end Sys2Proof.Machine
end

section
/-! PROOFS. Instructions that do not look at memory (10_state.md R32, R39), and writes to R0 (10_state.md R31). -/

namespace Sys2Proof.Machine

open Sys2Proof.Config

/-! ### Another memory -/

/-- The state with another memory in its place. -/
def State.withMem (s : State) (m : Memory) : State := { s with mem := m }

/-- An answer with another memory in its next state. -/
def answerWithMem (m : Memory) : Result → Result
  | .next t => .next (t.withMem m)
  | .fault f => .fault f
  | .refused r => .refused r

/-! Each shared ending, whose operands no memory changes, commutes with a change of memory. -/

section AnotherMemory

variable (s : State) (m : Memory)

theorem writeGprChecked_withMem (rd : GReg) (v : Except Fault Word) :
    writeGprChecked rd v (s.withMem m) = answerWithMem m (writeGprChecked rd v s) := by
  cases v <;> rfl

theorem writeFprOrNan_withMem (rd : FReg) (v : Option Word) :
    writeFprOrNan rd v (s.withMem m) = answerWithMem m (writeFprOrNan rd v s) := by
  cases v <;> rfl

theorem writeDblOrNan_withMem (rd : DReg) (v : Option DWord) :
    writeDblOrNan rd v (s.withMem m) = answerWithMem m (writeDblOrNan rd v s) := by
  cases v <;> rfl

theorem writeFprOrDraw_withMem (rd : FReg) (v : Option Word) :
    writeFprOrDraw rd v (s.withMem m) = answerWithMem m (writeFprOrDraw rd v s) := by
  cases v <;> rfl

theorem branch_withMem (taken : Bool) (target : Word) :
    branch taken target (s.withMem m) = answerWithMem m (branch taken target s) := by
  cases taken <;> rfl

/-- A division, which faults on a zero divisor before anything else. -/
theorem division_withMem {c : Prop} [Decidable c] {r r' : Result} (h : r' = answerWithMem m r) :
    (if c then raise .divideByZero else r') = answerWithMem m (if c then raise .divideByZero else r) := by
  split
  · rfl
  · exact h

/-- An instruction that is no load, store or TRAP does on another memory what it does on the first. -/
theorem exec_withMem {i : Instr} (hl : loadAccess i = none) (hs : storeAccess i = none) (ht : isTrap i = false) :
    exec i (s.withMem m) = answerWithMem m (exec i s) := by
  cases i
  case lb | lbu | lh | lhu | lw | lf | ld => cases hl
  case sb | sh | sw | sf | sd => cases hs
  case trap => cases ht
  case add | addi | sub | subi | mult => exact writeGprChecked_withMem s m ..
  case div => exact division_withMem m (writeGprChecked_withMem s m ..)
  case divu => exact division_withMem m rfl
  case beqz | bnez | bfpt | bfpf => exact branch_withMem s m ..
  case addf | subf | multf | divf | cvtd2f => exact writeFprOrNan_withMem s m ..
  case addd | subd | multd | divd | cvtf2d => exact writeDblOrNan_withMem s m ..
  case cvtf2i | cvtd2i => exact writeFprOrDraw_withMem s m ..
  all_goals rfl

end AnotherMemory

/-- Settles O57, by the two answers named. -/
theorem memoryDoesNotMatter : Obligations.memory_does_not_matter := by
  intro i s m hl hs ht
  have hcomm := exec_withMem s m hl hs ht
  constructor
  · intro t h
    rw [h] at hcomm
    exact hcomm
  · intro f h
    rw [h] at hcomm
    exact hcomm

/-! ### Writes to R0 -/

/-- An instruction with a general register as destination has no other: the tables of Safety.lean, read constructor by
constructor. -/
theorem no_other_destination {i : Instr} {rd : GReg} (h : gprDest i = some rd) :
    fprDests i = [] ∧ isCompare i = false ∧ storeAccess i = none ∧ isTrap i = false := by
  cases i <;> cases h <;> exact ⟨rfl, rfl, rfl, rfl⟩

/-- A write to R0 is discarded, so that only the pc moves (10_state.md R31). -/
theorem Effect.jumpResult_of_gprDest_zero {i : Instr} {s t : State} (e : Effect i s t) (hd : gprDest i = some 0#5) :
    JumpResult (s.pc + 4#32) s t := by
  obtain ⟨hfpr, hcompare, hstore, htrap⟩ := no_other_destination hd
  cases e with
  | gpr rd v h =>
    obtain rfl : rd = 0#5 := Option.some.inj (h.symm.trans hd)
    rw [State.setGpr_zero]
    exact jumpResult_jump (s.pc + 4#32) s
  | fpr _ _ h => simp [hfpr] at h
  | fprDraw _ _ h => simp [hfpr] at h
  | dbl _ _ h => simp [hfpr] at h
  | dblDraw _ _ h => simp [hfpr] at h
  | compare _ h => simp [hcompare] at h
  | store _ _ _ _ h => simp [hstore] at h
  | jump _ h => simp [hd] at h
  | link _ h => simp [hd, linkReg] at h
  | final h => simp [h, isTrap] at htrap
  | host _ h => simp [htrap] at h

/-! Each shared ending faults whatever the destination. -/

section Faults

variable (rd rd' : GReg) (s : State) (f : Fault)

theorem writeGprChecked_fault_congr (v : Except Fault Word) :
    writeGprChecked rd v s = .fault f ↔ writeGprChecked rd' v s = .fault f := by
  rw [writeGprChecked_fault_iff, writeGprChecked_fault_iff]

theorem writeGpr_fault_congr (v : Word) : writeGpr rd v s = .fault f ↔ writeGpr rd' v s = .fault f := by
  simp [writeGpr]

theorem load_fault_congr (addr : Word) (n : Nat) (write write' : List Byte → State) :
    load addr n write s = .fault f ↔ load addr n write' s = .fault f := by
  rw [load_fault_iff, load_fault_iff]

theorem division_fault_congr {c : Prop} [Decidable c] {r r' : Result} (h : r = .fault f ↔ r' = .fault f) :
    (if c then raise .divideByZero else r) = .fault f ↔ (if c then raise .divideByZero else r') = .fault f := by
  split
  · rfl
  · exact h

end Faults

/-- Settles O58: the part of completing by what an instruction can do to the state, the part of faulting by the shared
ending of each instruction. -/
theorem writesToRZero : Obligations.writes_to_r_zero := by
  refine ⟨fun s t i hexec hd => (exec_effect hexec).jumpResult_of_gprDest_zero hd, fun s f rd a b d => ?_⟩
  have hchecked := writeGprChecked_fault_congr 0#5 rd s f
  have hload := load_fault_congr s f
  exact ⟨hchecked _, hchecked _, hchecked _, division_fault_congr f (hchecked _),
    division_fault_congr f (writeGpr_fault_congr 0#5 rd s f _), hchecked _, hchecked _,
    hload .., hload .., hload .., hload .., hload .., Iff.rfl⟩

end Sys2Proof.Machine
end

section
/-! PROOFS. What the assembler's second pass places (45_assembler.md R301), and the load of an image (10_state.md
R46). -/

namespace Sys2Proof.Machine

open Sys2Proof.Config

/-! ### The addresses a memory lists -/

/-- The addresses a memory lists, in its order. -/
def listedAddrs (m : Memory) : List Nat := m.map Prod.fst

theorem listedAddrs_append (m n : Memory) : listedAddrs (m ++ n) = listedAddrs m ++ listedAddrs n := List.map_append

/-- An address is not listed exactly where the lookup finds nothing. -/
theorem memLookup_eq_none_iff (m : Memory) (a : Nat) : memLookup m a = none ↔ a ∉ listedAddrs m := by
  induction m with
  | nil => simp [memLookup, listedAddrs]
  | cons c m ih =>
    obtain ⟨k, v⟩ := c
    by_cases h : k = a
    · simp [memLookup, listedAddrs, h]
    · have h' : a ≠ k := fun heq => h heq.symm
      simpa [memLookup, listedAddrs, h, h'] using ih

/-- Where an address is not yet listed, listing it adds one cell. -/
theorem memInsert_perm {m : Memory} {a : Nat} (v : Byte) (h : a ∉ listedAddrs m) :
    (memInsert a v m).Perm ((a, v) :: m) := by
  induction m with
  | nil => rfl
  | cons c m ih =>
    obtain ⟨k, w⟩ := c
    obtain ⟨hk, hm⟩ : a ≠ k ∧ a ∉ listedAddrs m := by simpa [listedAddrs] using h
    simp only [memInsert, hk, if_false]
    split
    · rfl
    · exact ((ih hm).cons (k, w)).trans (.swap (a, v) (k, w) m)

/-! ### Placing bytes in an image (R301) -/

/-- What the second pass keeps of its image: no address twice, none past the top (20_memory.md R60), and all four
bytes of every instruction among them. -/
structure AsmImage.WellPlaced (img : AsmImage) : Prop where
  distinct : (listedAddrs img.bytes).Nodup
  bounded : ∀ a ∈ listedAddrs img.bytes, a < 2 ^ 32
  textPlaced : ∀ a ∈ img.text, ∀ k < 4, a + k ∈ listedAddrs img.bytes

/-- Where a byte's address is new, placing it adds one cell, whichever part it goes to. -/
theorem AsmImage.addByte_perm {img : AsmImage} {addr : Nat} (inText : Bool) (b : Byte)
    (h : addr ∉ listedAddrs img.bytes) : (img.addByte inText addr b).bytes.Perm ((addr, b) :: img.bytes) := by
  unfold AsmImage.bytes at h ⊢
  rw [listedAddrs_append, List.mem_append, not_or] at h
  obtain ⟨htext, hdata⟩ := h
  cases inText with
  | true => exact (memInsert_perm b htext).append_right img.dataPart
  | false => exact ((memInsert_perm b hdata).append_left img.textPart).trans List.perm_middle

/-- So the addresses are those before and the new one. -/
theorem AsmImage.addByte_addrs_perm {img : AsmImage} {addr : Nat} (inText : Bool) (b : Byte)
    (h : addr ∉ listedAddrs img.bytes) :
    (listedAddrs (img.addByte inText addr b).bytes).Perm (addr :: listedAddrs img.bytes) :=
  (AsmImage.addByte_perm inText b h).map Prod.fst

@[simp] theorem AsmImage.addByte_text (img : AsmImage) (inText : Bool) (addr : Nat) (b : Byte) :
    (img.addByte inText addr b).text = img.text := by
  cases inText <;> rfl

/-- A first byte that is placed lies in the address space at a new address. -/
theorem AsmImage.placeBytes_cons {img out : AsmImage} {inText : Bool} {addr : Nat} {b : Byte} {bs : List Byte}
    (h : img.placeBytes inText addr (b :: bs) = .ok out) :
    addr < 2 ^ 32 ∧ addr ∉ listedAddrs img.bytes ∧
      (img.addByte inText addr b).placeBytes inText (addr + 1) bs = .ok out := by
  unfold AsmImage.placeBytes at h
  split at h
  · cases h
  · split at h
    · cases h
    · rename_i hlt hnew
      exact ⟨by omega, (memLookup_eq_none_iff ..).mp (by simpa using hnew), h⟩

/-- The image after placing n bytes from addr on: it lists the addresses from before and the n new ones. -/
structure AsmImage.Extends (img : AsmImage) (addr n : Nat) (out : AsmImage) : Prop where
  kept : ∀ a ∈ listedAddrs img.bytes, a ∈ listedAddrs out.bytes
  placed : ∀ k < n, addr + k ∈ listedAddrs out.bytes

theorem AsmImage.placeBytes_extends {img out : AsmImage} {inText : Bool} {addr : Nat} {bs : List Byte}
    (h : img.placeBytes inText addr bs = .ok out) : img.Extends addr bs.length out := by
  induction bs generalizing img addr with
  | nil =>
    cases h
    exact ⟨fun _ ha => ha, fun _ hk => by simp at hk⟩
  | cons b bs ih =>
    obtain ⟨-, hnew, hrest⟩ := placeBytes_cons h
    obtain ⟨hkept, hplaced⟩ := ih hrest
    have hmem := fun a => (addByte_addrs_perm inText b hnew).mem_iff (a := a)
    refine ⟨fun a ha => hkept a ((hmem a).mpr (List.mem_cons_of_mem addr ha)), fun k hk => ?_⟩
    cases k with
    | zero => exact hkept addr ((hmem addr).mpr List.mem_cons_self)
    | succ k =>
      rw [List.length_cons] at hk
      have := hplaced k (by omega)
      rwa [show addr + 1 + k = addr + (k + 1) by omega] at this

/-- Placing one byte at a new address of the address space keeps an image well placed. -/
theorem AsmImage.WellPlaced.addByte {img : AsmImage} (hw : img.WellPlaced) {addr : Nat} (inText : Bool) (b : Byte)
    (hlt : addr < 2 ^ 32) (hnew : addr ∉ listedAddrs img.bytes) : (img.addByte inText addr b).WellPlaced := by
  have hperm := addByte_addrs_perm inText b hnew
  refine ⟨hperm.nodup_iff.mpr (List.nodup_cons.mpr ⟨hnew, hw.distinct⟩), fun a ha => ?_, fun a ha k hk => ?_⟩
  · rcases List.mem_cons.mp (hperm.mem_iff.mp ha) with rfl | ha
    · exact hlt
    · exact hw.bounded a ha
  · rw [addByte_text] at ha
    exact hperm.mem_iff.mpr (List.mem_cons_of_mem addr (hw.textPlaced a ha k hk))

/-- Placing bytes keeps an image well placed. -/
theorem AsmImage.WellPlaced.placeBytes {img out : AsmImage} (hw : img.WellPlaced) {inText : Bool} {addr : Nat}
    {bs : List Byte} (h : img.placeBytes inText addr bs = .ok out) : out.WellPlaced := by
  induction bs generalizing img addr with
  | nil =>
    cases h
    exact hw
  | cons b bs ih =>
    obtain ⟨hlt, hnew, hrest⟩ := placeBytes_cons h
    exact ih (hw.addByte inText b hlt hnew) hrest

/-- So does making an instruction's address TEXT, once its four bytes are placed. -/
theorem AsmImage.WellPlaced.addText {img : AsmImage} (hw : img.WellPlaced) {isInstr : Bool} {addr : Nat}
    (h : isInstr = true → ∀ k < 4, addr + k ∈ listedAddrs img.bytes) : (img.addText isInstr addr).WellPlaced := by
  cases isInstr with
  | false => exact hw
  | true =>
    refine ⟨hw.distinct, hw.bounded, fun a ha => ?_⟩
    rcases List.mem_cons.mp ha with rfl | ha
    · exact h rfl
    · exact hw.textPlaced a ha

/-! ### The second pass -/

/-- Where a do block answers, so do its first part and the rest. -/
theorem bind_ok {ε α β : Type} {x : Except ε α} {f : α → Except ε β} {b : β} (h : (x >>= f) = .ok b) :
    ∃ a, x = .ok a ∧ f a = .ok b := by
  cases x with
  | ok a => exact ⟨a, rfl, h⟩
  | error e => cases h

/-- An instruction's bytes are four (30_encoding.md R90). -/
theorem fitInstr_length {enc : Enc} {i : Instr} {bs : List Byte} (h : fitInstr enc i = .ok bs) : bs.length = 4 := by
  unfold fitInstr at h
  split at h
  · rename_i cs hcs
    obtain ⟨w, -, rfl⟩ := Option.map_eq_some_iff.mp hcs
    cases h
    exact beBytes_length 4 w
  · cases h

/-- What is placed as an instruction has four bytes. -/
theorem AsmStatement.bytes_length {enc : Enc} {syms : AsmSymbols} {addr : Nat} {st : AsmStatement} {bs : List Byte}
    (h : st.bytes enc syms addr = .ok (bs, true)) : bs.length = 4 := by
  cases st with
  | instruction m ops =>
    simp only [AsmStatement.bytes] at h
    split at h
    · obtain ⟨i, -, h⟩ := bind_ok h
      obtain ⟨cs, hcs, h⟩ := bind_ok h
      cases h
      exact fitInstr_length hcs
    · cases h
  | directive d =>
    cases d
    case byte values =>
      obtain ⟨cs, -, h⟩ := bind_ok h
      cases h
    case word values =>
      obtain ⟨cs, -, h⟩ := bind_ok h
      cases h
    all_goals cases h

/-- A line with a statement places the statement's bytes at the current counter; the other lines follow. -/
theorem emitLines_cons {enc : Enc} {c : AsmCounters} {img out : AsmImage} {l : AsmLine} {ls : List AsmLine}
    (h : emitLines enc c img (l :: ls) = .ok out) :
    emitLines enc c img ls = .ok out ∨
      ∃ (st : AsmStatement) (bs : List Byte) (isInstr : Bool) (placed : AsmImage) (c' : AsmCounters),
        st.bytes enc img.symbols c.here = .ok (bs, isInstr) ∧
        img.placeBytes c.inText c.here bs = .ok placed ∧
        emitLines enc c' (placed.addText isInstr c.here) ls = .ok out := by
  unfold emitLines at h
  split at h
  · exact .inl h
  · rename_i st _
    obtain ⟨⟨bs, isInstr⟩, hbytes, h⟩ := bind_ok h
    obtain ⟨placed, hplaced, h⟩ := bind_ok h
    obtain ⟨c', -, h⟩ := bind_ok h
    exact .inr ⟨st, bs, isInstr, placed, c', hbytes, hplaced, h⟩

/-- The second pass keeps its image well placed. -/
theorem AsmImage.WellPlaced.emitLines {enc : Enc} {c : AsmCounters} {img out : AsmImage} {ls : List AsmLine}
    (hw : img.WellPlaced) (h : emitLines enc c img ls = .ok out) : out.WellPlaced := by
  induction ls generalizing c img with
  | nil =>
    cases h
    exact hw
  | cons l ls ih =>
    rcases emitLines_cons h with hrest | ⟨st, bs, isInstr, placed, c', hbytes, hplaced, hrest⟩
    · exact ih hw hrest
    · refine ih ((hw.placeBytes hplaced).addText fun hinstr k hk => ?_) hrest
      subst hinstr
      exact (placeBytes_extends hplaced).placed k (AsmStatement.bytes_length hbytes ▸ hk)

/-- An assembled image is well placed. -/
theorem assembleLines_wellPlaced {p : AsmParams} {ls : List AsmLine} {img : AsmImage}
    (h : assembleLines p ls = .ok img) : img.WellPlaced := by
  obtain ⟨syms, -, hemit⟩ := bind_ok h
  have hempty : AsmImage.WellPlaced ⟨[], [], [], syms⟩ :=
    ⟨List.nodup_nil, fun _ ha => (List.not_mem_nil ha).elim, fun _ ha => (List.not_mem_nil ha).elim⟩
  exact hempty.emitLines hemit

/-! ### Loading -/

/-- The state with each listed byte written at its address. -/
def State.writeCells (s : State) (cs : Memory) : State := cs.foldl (fun t c => t.writeByte c.1 c.2) s

/-- The state with more regions in TEXT. -/
def State.addRegions (s : State) (rs : List Region) : State :=
  { s with params := { s.params with text := rs ++ s.params.text } }

/-- The four bytes of each instruction of an image (R301). -/
def AsmImage.textRegions (img : AsmImage) : List Region := img.text.map (fun a => ⟨a, 4⟩)

/-- A load writes the bytes and makes the instructions TEXT. -/
theorem load_of_fits {s : State} {img : AsmImage} (h : img.fits s = true) :
    s.load img = some ((s.writeCells img.bytes).addRegions img.textRegions) := by
  unfold State.load
  rw [if_pos h]
  rfl

/-- An image that does not fit is refused (log 16). -/
theorem load_of_not_fits {s : State} {img : AsmImage} (h : img.fits s = false) : s.load img = none := by
  unfold State.load
  rw [if_neg (by simp [h])]

/-- Writing cells changes memory alone. -/
theorem writeCells_eq (s : State) (cs : Memory) : s.writeCells cs = { s with mem := (s.writeCells cs).mem } := by
  induction cs generalizing s with
  | nil => rfl
  | cons c cs ih => exact ih (s.writeByte c.1 c.2)

@[simp] theorem State.writeCells_pc (s : State) (cs : Memory) : (s.writeCells cs).pc = s.pc := by
  rw [writeCells_eq]

@[simp] theorem State.writeCells_params (s : State) (cs : Memory) : (s.writeCells cs).params = s.params := by
  rw [writeCells_eq]

/-- Writing cells of the address space keeps the invariant. -/
theorem State.Inv.writeCells {s : State} (h : s.Inv) {cs : Memory} (hlt : ∀ a ∈ listedAddrs cs, a < 2 ^ 32) :
    (s.writeCells cs).Inv := by
  induction cs generalizing s with
  | nil => exact h
  | cons c cs ih =>
    obtain ⟨hc, hcs⟩ := List.forall_mem_cons.mp hlt
    exact ih (h.writeByte hc c.2) hcs

/-- An address that no cell names reads as before. -/
theorem readByte_writeCells_of_not_mem {s : State} (hr : Rising s.mem) {cs : Memory} {a : Nat}
    (ha : a ∉ listedAddrs cs) : (s.writeCells cs).readByte a = s.readByte a := by
  induction cs generalizing s with
  | nil => rfl
  | cons c cs ih =>
    obtain ⟨hne, hcs⟩ : a ≠ c.1 ∧ a ∉ listedAddrs cs := by simpa [listedAddrs] using ha
    calc ((s.writeByte c.1 c.2).writeCells cs).readByte a
      _ = (s.writeByte c.1 c.2).readByte a := ih (writeByte_rising hr c.1 c.2) hcs
      _ = s.readByte a := by rw [readByte_writeByte hr, if_neg hne]

/-- Where no address is named twice, each reads what its cell holds. -/
theorem readByte_writeCells_of_mem {s : State} (hr : Rising s.mem) {cs : Memory} (hd : (listedAddrs cs).Nodup)
    {c : Host.Cell} (hc : c ∈ cs) : (s.writeCells cs).readByte c.1 = some c.2 := by
  induction cs generalizing s with
  | nil => exact (List.not_mem_nil hc).elim
  | cons d cs ih =>
    obtain ⟨hnew, hd⟩ := List.nodup_cons.mp hd
    have hr' := writeByte_rising hr d.1 d.2
    rcases List.mem_cons.mp hc with rfl | hc
    · calc ((s.writeByte c.1 c.2).writeCells cs).readByte c.1
        _ = (s.writeByte c.1 c.2).readByte c.1 := readByte_writeCells_of_not_mem hr' hnew
        _ = some c.2 := by rw [readByte_writeByte hr, if_pos rfl]
    · exact ih hr' hd hc

/-- An address lies in one of two lists of regions where it lies in the first or the second. -/
theorem inRegions_append (rs qs : List Region) (a : Nat) :
    inRegions (rs ++ qs) a = true ↔ inRegions rs a = true ∨ inRegions qs a = true := by
  simp only [inRegions, List.any_append, Bool.or_eq_true]

/-- An address is an instruction's where it is one of four from a listed one on. -/
theorem AsmImage.inRegions_textRegions_iff (img : AsmImage) (b : Nat) :
    inRegions img.textRegions b = true ↔ ∃ a ∈ img.text, ∃ k < 4, b = a + k := by
  simp only [AsmImage.textRegions, inRegions, List.any_map, List.any_eq_true, Function.comp_apply, Bool.and_eq_true,
    decide_eq_true_iff]
  refine exists_congr fun a => and_congr_right fun _ => ⟨fun ⟨hle, hlt⟩ => ⟨b - a, by omega⟩, ?_⟩
  rintro ⟨k, hk, rfl⟩
  omega

/-- New TEXT that is mapped and has values keeps the invariant. -/
theorem State.Inv.addRegions {s : State} (h : s.Inv) {rs : List Region}
    (hmapped : ∀ a, inRegions rs a = true → inRegions s.params.memMap a = true ∧ a < 2 ^ 32)
    (hloaded : ∀ a, inRegions rs a = true → (s.readByte a).isSome = true) : (s.addRegions rs).Inv where
  memory := h.memory
  zero := h.zero
  textMapped a ha := ((inRegions_append ..).mp ha).elim (hmapped a) (h.textMapped a)
  textLoaded a ha := ((inRegions_append ..).mp ha).elim (hloaded a) (h.textLoaded a)

/-- Where an image fits, its addresses are mapped. -/
theorem AsmImage.mapped_of_fits {img : AsmImage} {s : State} (h : img.fits s = true) {a : Nat}
    (ha : a ∈ listedAddrs img.bytes) : inRegions s.params.memMap a = true := by
  obtain ⟨c, hc, rfl⟩ := List.mem_map.mp ha
  exact List.all_eq_true.mp h c hc

/-- Loading a well-placed image that fits: all its bytes are written before its instructions become TEXT. -/
theorem State.Inv.load {s : State} (h : s.Inv) {img : AsmImage} (hw : img.WellPlaced) (hfits : img.fits s = true) :
    ((s.writeCells img.bytes).addRegions img.textRegions).Inv := by
  have hplaced : ∀ b, inRegions img.textRegions b = true → b ∈ listedAddrs img.bytes := by
    intro b hb
    obtain ⟨a, ha, k, hk, rfl⟩ := (img.inRegions_textRegions_iff _).mp hb
    exact hw.textPlaced a ha k hk
  refine (h.writeCells hw.bounded).addRegions (fun b hb => ?_) (fun b hb => ?_)
  · rw [State.writeCells_params]
    exact ⟨img.mapped_of_fits hfits (hplaced b hb), hw.bounded b (hplaced b hb)⟩
  · obtain ⟨c, hc, rfl⟩ := List.mem_map.mp (hplaced b hb)
    rw [readByte_writeCells_of_mem (Memory.wf_rising h.memory) hw.distinct hc]
    rfl

/-- Settles O59, by what the second pass keeps of its image. -/
theorem loadingAnAssembledImage : Obligations.loading_an_assembled_image := by
  intro p ls img s hasm h
  have hw := assembleLines_wellPlaced hasm
  refine ⟨fun hfits => ⟨_, load_of_fits hfits, h.load hw hfits, State.writeCells_pc s img.bytes, ?_, ?_⟩,
    load_of_not_fits⟩
  · intro c hc
    exact readByte_writeCells_of_mem (Memory.wf_rising h.memory) hw.distinct hc
  · intro a ha k hk
    exact (inRegions_append ..).mpr (.inl ((img.inRegions_textRegions_iff _).mpr ⟨a, ha, k, hk, rfl⟩))

end Sys2Proof.Machine
end

section
/-! PROOFS. The bytes of a value (20_memory.md R61), and that only stores change memory and none changes TEXT (R65,
R77). -/

namespace Sys2Proof

/-! ### The bytes of a value, and the value of bytes (20_memory.md R61) -/

theorem beBytes_zero {w : Nat} (v : BitVec w) : beBytes 0 v = [] := rfl

/-- The n + 1 low bytes are the byte of weight n, then the n low bytes. -/
theorem beBytes_succ {w : Nat} (n : Nat) (v : BitVec w) :
    beBytes (n + 1) v = v.extractLsb' (8 * n) 8 :: beBytes n v := by
  rw [beBytes, BitVec.setWidth_ushiftRight_eq_extractLsb]

/-- Byte k of the n low bytes of a value, most significant first, is its byte of weight n - 1 - k. -/
theorem beBytes_getElem? {w n k : Nat} (v : BitVec w) (hk : k < n) :
    (beBytes n v)[k]? = some (v.extractLsb' (8 * (n - 1 - k)) 8) := by
  induction n generalizing k with
  | zero => omega
  | succ n ih =>
    cases k with
    | zero => simp [beBytes_succ]
    | succ k =>
      have hweight : n - 1 - k = n + 1 - 1 - (k + 1) := by omega
      rw [beBytes_succ, List.getElem?_cons_succ, ih (by omega), hweight]

/-- The two words of an eight-byte value. -/
theorem beValue_eight_words (b0 b1 b2 b3 b4 b5 b6 b7 : Byte) :
    beValue 64 [b0, b1, b2, b3, b4, b5, b6, b7] =
      ((b0 ++ b1 ++ b2 ++ b3 : Word) ++ (b4 ++ b5 ++ b6 ++ b7 : Word) : DWord) := by
  rw [beValue_eight]
  ext k hk
  simp
  grind

/-- One byte more at the end is the low byte of the value. -/
theorem beValue_append_singleton (w : Nat) (bs : List Byte) (b : Byte) :
    beValue w (bs ++ [b]) = beValue w bs <<< 8 ||| b.setWidth w := by
  simp [beValue]

/-- The byte shifted in is the low byte. -/
theorem extractLsb'_shiftIn_low {w : Nat} (x : BitVec w) (b : Byte) (hw : 8 ≤ w) :
    (x <<< 8 ||| b.setWidth w).extractLsb' 0 8 = b := by
  ext j hj
  have hjw : j < w := by omega
  simp [hj, hjw]

/-- Above the byte shifted in, every byte stands one place higher. -/
theorem extractLsb'_shiftIn_high {w m : Nat} (x : BitVec w) (b : Byte) (hw : 8 * (m + 1) + 8 ≤ w) :
    (x <<< 8 ||| b.setWidth w).extractLsb' (8 * (m + 1)) 8 = x.extractLsb' (8 * m) 8 := by
  ext j hj
  have hjw : 8 * (m + 1) + j < w := by omega
  have hge : 8 ≤ 8 * (m + 1) + j := by omega
  have hplace : 8 * (m + 1) + j - 8 = 8 * m + j := by omega
  have hx : 8 * m + j < w := by omega
  simp [hjw, hplace, Nat.not_lt.mpr hge, BitVec.getLsbD_of_ge b _ hge, BitVec.getLsbD_eq_getElem hx]

/-- The byte of weight n - 1 - k of the value of n bytes is byte k of them. -/
theorem extractLsb'_beValue {w k : Nat} {bs : List Byte} (hw : 8 * bs.length ≤ w) (hk : k < bs.length) :
    some ((beValue w bs).extractLsb' (8 * (bs.length - 1 - k)) 8) = bs[k]? := by
  induction bs using List.reverseRecOn generalizing k with
  | nil => simp at hk
  | append_singleton bs b ih =>
    rw [List.length_append, List.length_singleton] at hw hk ⊢
    rw [beValue_append_singleton]
    by_cases hlast : k = bs.length
    · have hweight : bs.length + 1 - 1 - k = 0 := by omega
      rw [hweight, Nat.mul_zero, extractLsb'_shiftIn_low _ _ (by omega), hlast, List.getElem?_concat_length]
    · have hweight : bs.length + 1 - 1 - k = bs.length - 1 - k + 1 := by omega
      rw [hweight, extractLsb'_shiftIn_high _ _ (by omega), ih (by omega) (by omega),
        List.getElem?_append_left (by omega)]

end Sys2Proof

namespace Sys2Proof.Machine

open Sys2Proof.Config

/-! ### What an instruction leaves of memory -/

section Memory

variable {i : Instr} {s t : State}

/-- Without the host, an instruction that is no store leaves memory (40_data_transfer.md R130). -/
theorem Effect.sameMemory (e : Effect i s t) (hno : isTrap i = false ∨ s.params.trapHandler = .undefined)
    (hs : storeAccess i = none) : SameMemory s t := by
  cases e with
  | store _ _ _ _ h => simp [hs] at h
  | host cs h hp => exact absurd ⟨h, hp⟩ (not_host hno)
  | _ => exact fun _ => rfl

/-- A store changes no byte outside its access (20_memory.md R64, R65). -/
theorem Effect.readByte_outside (e : Effect i s t) (hno : isTrap i = false ∨ s.params.trapHandler = .undefined)
    (hwf : Memory.wf s.params.unwrittenRead s.mem = true) {rs1 : GReg} {imm16 : Imm16} {n : Nat}
    (hs : storeAccess i = some (rs1, imm16, n)) {a : Nat}
    (ha : ¬((effectiveAddress s rs1 imm16).toNat ≤ a ∧ a < (effectiveAddress s rs1 imm16).toNat + n)) :
    t.readByte a = s.readByte a := by
  cases e with
  | store rs1' imm16' bs u h hw =>
    obtain ⟨rfl, rfl, rfl⟩ : rs1' = rs1 ∧ imm16' = imm16 ∧ bs.length = n := by simpa [h] using hs
    obtain rfl := memWrite_eq_writeBytes hw
    exact (storeResult_writeBytes hwf _ bs).outside a ha
  | host cs h hp => exact absurd ⟨h, hp⟩ (not_host hno)
  | _ => rfl

/-- Without the host, no instruction changes a byte of TEXT: a store that touches one faults (20_memory.md R64,
R77). -/
theorem Effect.readByte_text (e : Effect i s t) (hwf : Memory.wf s.params.unwrittenRead s.mem = true)
    (hno : s.params.trapHandler = .undefined) {a : Nat} (ha : inRegions s.params.text a = true) :
    t.readByte a = s.readByte a := by
  cases e with
  | store rs1 imm16 bs u h hw =>
    obtain ⟨-, htext, rfl⟩ := (memWrite_ok_iff ..).mp hw
    refine (storeResult_writeBytes hwf _ bs).outside a fun ⟨hle, hlt⟩ => ?_
    have hfree := htext (a - (effectiveAddress s rs1 imm16).toNat) (by omega)
    rw [Nat.add_sub_cancel' hle, ha] at hfree
    cases hfree
  | host cs h hp => exact absurd ⟨h, hp⟩ (not_host (.inr hno))
  | _ => rfl

end Memory

/-- Settles O54, by what an instruction can do to the state. -/
theorem textIsImmutable : Obligations.text_is_immutable := by
  intro s t hinv hno hstep
  obtain ⟨-, i, -, hexec⟩ := (step_next_iff s t).mp hstep
  have heffect := exec_effect hexec
  exact ⟨congrArg Params.text heffect.params_eq, fun a ha => heffect.readByte_text hinv.memory hno ha⟩

/-- Settles O52, by what an instruction can do to the state. -/
theorem onlyStoresChangeMemory : Obligations.only_stores_change_memory := by
  intro i s t hexec hno
  have heffect := exec_effect hexec
  exact ⟨heffect.sameMemory hno, fun _ _ _ hs hwf _ ha => heffect.readByte_outside hno hwf hs ha⟩

end Sys2Proof.Machine
end

section
/-! PROOFS. MemRead and MemWrite with their checks in order (20_memory.md R63, R64), and the faults of a fetch (R76). -/

namespace Sys2Proof.Machine

section Accesses

variable {s : State} {addr : Word} {n : Nat}

/-! ### The checks (20_memory.md R63, R64) -/

/-- A failed check ends MemRead. -/
theorem memRead_of_checkAccess_error {f : Fault} (h : s.checkAccess addr n = .error f) :
    s.memRead addr n = .error f := by
  rw [State.memRead, h]

/-- A failed check ends MemWrite. -/
theorem memWrite_of_checkAccess_error {bs : List Byte} {f : Fault} (h : s.checkAccess addr bs.length = .error f) :
    s.memWrite addr bs = .error f := by
  rw [State.memWrite, h]

/-- An aligned access with a byte outside MEM_MAP raises AccessFault. -/
theorem checkAccess_not_mapped (ha : addr.toNat % n = 0) (hm : ¬Mapped s addr n) :
    s.checkAccess addr n = .error (.accessFault addr n) :=
  checkAccess_unmapped ha fun h => hm h.1

/-! ### MemRead (20_memory.md R63) -/

/-- Reading several bytes stops at the first that has no value. -/
theorem readBytes_of_unwritten {a n k : Nat} (hk : k < n) (hnone : s.readByte (a + k) = none)
    (hbefore : ∀ j < k, s.readByte (a + j) ≠ none) :
    s.readBytes a n = .error (.unwrittenRead (BitVec.ofNat 32 (a + k))) := by
  induction k generalizing a n with
  | zero =>
    obtain ⟨n, rfl⟩ := Nat.exists_eq_add_one.mpr hk
    rw [Nat.add_zero] at hnone
    simp [State.readBytes, hnone]
  | succ k ih =>
    obtain ⟨n, rfl⟩ := Nat.exists_eq_add_one.mpr (Nat.zero_lt_of_lt hk)
    obtain ⟨b, hb⟩ := Option.ne_none_iff_exists'.mp (hbefore 0 (by omega))
    rw [Nat.add_zero] at hb
    have hshift : ∀ j, a + 1 + j = a + (j + 1) := fun j => by omega
    have hrest : s.readBytes (a + 1) n = .error (.unwrittenRead (BitVec.ofNat 32 (a + (k + 1)))) := by
      rw [← hshift k]
      refine ih (by omega) ((hshift k).symm ▸ hnone) fun j hj => ?_
      rw [hshift]
      exact hbefore (j + 1) (by omega)
    simp [State.readBytes, hb, hrest]

/-- MemRead of an aligned and mapped address records the first byte that has no value (log 3). -/
theorem memRead_of_unwritten {k : Nat} (hok : s.checkAccess addr n = .ok ()) (hk : k < n)
    (hnone : s.readByte (addr.toNat + k) = none) (hbefore : ∀ j < k, s.readByte (addr.toNat + j) ≠ none) :
    s.memRead addr n = .error (.unwrittenRead (addr + BitVec.ofNat 32 k)) := by
  have hread := readBytes_of_unwritten hk hnone hbefore
  rw [BitVec.ofNat_add, BitVec.ofNat_toNat, BitVec.setWidth_eq] at hread
  rw [State.memRead, hok]
  exact hread

/-- Under UNWRITTEN_READ = any every byte has a value (00_scope.md R15). -/
theorem readByte_isSome_of_any (h : s.params.unwrittenRead = .any) (a : Nat) : (s.readByte a).isSome = true := by
  unfold State.readByte
  split
  · rfl
  · rw [h]
    rfl

/-! ### MemWrite (20_memory.md R64) -/

/-- MemWrite of an aligned and mapped address that touches TEXT. -/
theorem memWrite_of_text {bs : List Byte} (hok : s.checkAccess addr bs.length = .ok ())
    (ht : ¬OutsideText s addr bs.length) : s.memWrite addr bs = .error (.storeToText addr bs.length) := by
  have hsome : someInRegions s.params.text addr.toNat bs.length = true := by
    rw [someInRegions_iff]
    simpa [OutsideText] using ht
  rw [State.memWrite, hok]
  simp [hsome]

end Accesses

/-- Settles O13, by the checks in their order and the bytes of a value. -/
theorem memRead : Obligations.mem_read := by
  intro s addr n hn
  refine ⟨fun hmis => memRead_of_checkAccess_error (checkAccess_misaligned hmis),
    fun ha hm => memRead_of_checkAccess_error (checkAccess_not_mapped ha hm),
    fun ha hm k hk => memRead_of_unwritten (checkAccess_ok hn ha hm) hk, ?_, readByte_isSome_of_any, ?_⟩
  · rintro ha hm bs rfl hbytes
    exact memRead_of_loadable hn ⟨ha, hm, hbytes⟩
  · rintro bs rfl k hk
    exact extractLsb'_beValue le_rfl hk

/-- Settles O14, by the checks in their order and the bytes of a value. -/
theorem memWrite : Obligations.mem_write := by
  intro s addr n v hn
  have hlen : (beBytes n v).length = n := beBytes_length n v
  refine ⟨fun hmis => ?_, fun ha hm => ?_, fun ha hm ht => ?_, fun hwf hstorable => ?_⟩
  · exact memWrite_of_checkAccess_error (hlen.symm ▸ checkAccess_misaligned hmis)
  · exact memWrite_of_checkAccess_error (hlen.symm ▸ checkAccess_not_mapped ha hm)
  · have hfault := memWrite_of_text (bs := beBytes n v) (hlen.symm ▸ checkAccess_ok hn ha hm) (hlen.symm ▸ ht)
    rwa [hlen] at hfault
  · have hresult := storeResult_writeBytes hwf addr.toNat (beBytes n v)
    refine ⟨_, memWrite_of_storable (hlen.symm ▸ hn) (hlen.symm ▸ hstorable), fun k hk => ?_, fun b hb => ?_⟩
    · exact (hresult.stored k (hlen.symm ▸ hk)).trans (beBytes_getElem? v hk)
    · exact hresult.outside b (hlen.symm ▸ hb)

/-! ### The faults of a fetch (20_memory.md R76) -/

section Fetch

variable {s : State}

/-- A running state whose fetch or decoding fails stops there (60_exceptions.md R321). -/
theorem step_of_fetchInstr_error {f : Fault} (hrun : s.status = .running) (h : s.fetchInstr = .error f) :
    step s = .fault f := by
  rw [step, hrun, h]
  rfl

/-- A failed fetch is not decoded. -/
theorem fetchInstr_of_fetch_error {f : Fault} (h : s.fetch = .error f) : s.fetchInstr = .error f := by
  rw [State.fetchInstr, h]

/-- A misaligned pc, whatever else holds. -/
theorem fetch_misaligned (h : s.pc.toNat % 4 ≠ 0) : s.fetch = .error (.fetchMisaligned s.pc) := by
  rw [State.fetch, if_pos h]

/-- An aligned pc with a byte outside TEXT. -/
theorem fetch_outside (ha : s.pc.toNat % 4 = 0) (ht : ∃ k < 4, inRegions s.params.text (s.pc.toNat + k) = false) :
    s.fetch = .error (.fetchFault s.pc) := by
  have hout : ¬allInRegions s.params.text s.pc.toNat 4 = true := by
    rw [allInRegions_iff]
    obtain ⟨k, hk, hfree⟩ := ht
    exact fun hall => by simp [hall k hk] at hfree
  rw [State.fetch, if_neg (not_not_intro ha), if_neg hout]

/-- A word that decodes to no instruction is recorded in the fault (30_encoding.md R105). -/
theorem fetchInstr_illegal {w : Word} (hw : s.fetch = .ok w) (h : ∀ i, decodeWith s.params.enc w ≠ .ok i) :
    s.fetchInstr = .error (.illegalInstruction w) := by
  rw [State.fetchInstr, hw]
  cases hd : decodeWith s.params.enc w with
  | ok i => exact absurd hd (h i)
  | error e => simp [hd]

end Fetch

/-- Settles O6, by the checks of a fetch in their order. -/
theorem fetchFaults : Obligations.fetch_faults := by
  intro s hrun
  refine ⟨fun hmis => ?_, fun ha ht => ?_, fun b0 b1 b2 b3 ha ht hbytes hillegal => ?_⟩
  · exact step_of_fetchInstr_error hrun (fetchInstr_of_fetch_error (fetch_misaligned hmis))
  · exact step_of_fetchInstr_error hrun (fetchInstr_of_fetch_error (fetch_outside ha ht))
  · have hfetch := (fetch_ok_iff s _).mpr ⟨ha, ht, [b0, b1, b2, b3], rfl, hbytes, (beValue_four b0 b1 b2 b3).symm⟩
    exact step_of_fetchInstr_error hrun (fetchInstr_illegal hfetch hillegal)

end Sys2Proof.Machine
end

section
/-! PROOFS. Loads of any width after stores of any width (20_memory.md R62). -/

namespace Sys2Proof.Machine

/-! ### The bytes a store places (20_memory.md R61) -/

/-- The four bytes of a word. -/
theorem beBytes_four (w : Word) : beBytes 4 w = storedBytes.wordBytes w := by
  simp [beBytes_succ, beBytes_zero, storedBytes.wordBytes]

/-- The eight bytes of a pair are those of its even register, then those of its odd one (10_state.md R37). -/
theorem beBytes_eight (hi lo : Word) :
    beBytes 8 (hi ++ lo : DWord) = storedBytes.wordBytes hi ++ storedBytes.wordBytes lo := by
  have hhigh (p : Nat) (hp : 32 ≤ p) : (hi ++ lo : DWord).extractLsb' p 8 = hi.extractLsb' (p - 32) 8 :=
    BitVec.extractLsb'_append_eq_of_le hp
  have hlow (p : Nat) (hp : p + 8 ≤ 32) : (hi ++ lo : DWord).extractLsb' p 8 = lo.extractLsb' p 8 :=
    BitVec.extractLsb'_append_eq_of_add_le hp
  simp [beBytes_succ, beBytes_zero, storedBytes.wordBytes, hhigh, hlow]

section Stores

variable {i : Instr} {s t : State} {rs1 : GReg} {imm16 : Imm16} {n : Nat}

/-- A store is one MemWrite of its bytes at its effective address (40_data_transfer.md R130). -/
theorem exec_eq_store (h : storeAccess i = some (rs1, imm16, n)) :
    exec i s = store (effectiveAddress s rs1 imm16) (storedBytes s i) s := by
  cases i
  case sb => cases h; simp [exec, execSb, storedBytes, beBytes_succ, beBytes_zero]
  case sh => cases h; simp [exec, execSh, storedBytes, beBytes_succ, beBytes_zero]
  case sw => cases h; simp [exec, execSw, storedBytes, beBytes_four]
  case sf => cases h; simp [exec, execSf, storedBytes, beBytes_four]
  case sd => cases h; simp [exec, execSd, storedBytes, State.dbl, beBytes_eight]
  all_goals cases h

/-- A store places as many bytes as its access is wide. -/
theorem storedBytes_length (h : storeAccess i = some (rs1, imm16, n)) : (storedBytes s i).length = n := by
  cases i <;> cases h <;> rfl

/-- A store that completes has passed the checks of its access and written its bytes. -/
theorem exec_store_next (h : storeAccess i = some (rs1, imm16, n)) (hexec : exec i s = .next t) :
    s.checkAccess (effectiveAddress s rs1 imm16) n = .ok () ∧
      t = (s.writeBytes (effectiveAddress s rs1 imm16).toNat (storedBytes s i)).advance := by
  rw [exec_eq_store h] at hexec
  obtain ⟨u, hwrite, rfl⟩ := (store_next_iff ..).mp hexec
  obtain ⟨hcheck, -, rfl⟩ := (memWrite_ok_iff ..).mp hwrite
  rw [storedBytes_length h] at hcheck
  exact ⟨hcheck, rfl⟩

/-- What a byte reads after a store (20_memory.md R62). -/
theorem readByte_of_exec_store (hwf : Memory.wf s.params.unwrittenRead s.mem = true)
    (h : storeAccess i = some (rs1, imm16, n)) (hexec : exec i s = .next t) (a : Nat) :
    t.readByte a =
      if (effectiveAddress s rs1 imm16).toNat ≤ a ∧ a < (effectiveAddress s rs1 imm16).toNat + n then
        (storedBytes s i)[a - (effectiveAddress s rs1 imm16).toNat]?
      else s.readByte a := by
  obtain ⟨-, rfl⟩ := exec_store_next h hexec
  rw [State.advance_readByte, readByte_writeBytes (Memory.wf_rising hwf), storedBytes_length h]

end Stores

/-! ### What a load leaves (40_data_transfer.md R131 to R137) -/

section Loads

variable {j : Instr} {s : State} {b : GReg} {d : Imm16} {m : Nat} {bs : List Byte}

/-- A load accesses one, two, four or eight bytes (20_memory.md R65). -/
theorem loadAccess_width (h : loadAccess j = some (b, d, m)) : m = 1 ∨ m = 2 ∨ m = 4 ∨ m = 8 := by
  cases j <;> cases h <;> simp

/-- A load into a general register whose MemRead answers. -/
theorem load_gpr {addr : Word} (rd : GReg) {value : List Byte → Word} {v : Word} (hread : s.memRead addr m = .ok bs)
    (hv : value bs = v) :
    ∃ u, load addr m (fun bs => s.setGpr rd (value bs)) s = .next u ∧ GprResult rd v s u :=
  ⟨_, (load_next_iff ..).mpr ⟨bs, hread, rfl⟩, hv ▸ gprResult_setGpr rd _ s⟩

/-- A load into a floating-point register whose MemRead answers. -/
theorem load_fpr {addr : Word} (rd : FReg) {value : List Byte → Word} {v : Word} (hread : s.memRead addr m = .ok bs)
    (hv : value bs = v) :
    ∃ u, load addr m (fun bs => s.setFpr rd (value bs)) s = .next u ∧ FprResult rd v s u :=
  ⟨_, (load_next_iff ..).mpr ⟨bs, hread, rfl⟩, hv ▸ fprResult_setFpr rd _ s⟩

/-- A load into a pair whose MemRead answers. -/
theorem load_dbl {addr : Word} (rd : DReg) {value : List Byte → DWord} {v : DWord}
    (hread : s.memRead addr m = .ok bs) (hv : value bs = v) :
    ∃ u, load addr m (fun bs => s.setDbl rd (value bs)) s = .next u ∧ DblResult rd v s u :=
  ⟨_, (load_next_iff ..).mpr ⟨bs, hread, rfl⟩, hv ▸ dblResult_setDbl rd _ s⟩

/-- A load whose MemRead answers puts the bytes where its rule says. -/
theorem exec_load_of_memRead (h : loadAccess j = some (b, d, m))
    (hread : s.memRead (effectiveAddress s b d) m = .ok bs) : ∃ u, exec j s = .next u ∧ LoadResult bs s u j := by
  obtain ⟨-, hlen, -⟩ := (memRead_ok_iff ..).mp hread
  cases j
  case lb rd _ _ =>
    cases h
    obtain ⟨b0, rfl⟩ := List.length_eq_one_iff.mp hlen
    have hv : (beValue 8 [b0]).signExtend 32 = BitVec.ofInt 32 b0.toInt := by rw [beValue_one]; rfl
    exact (load_gpr rd hread hv).imp fun _ ⟨hu, hres⟩ => ⟨hu, b0, rfl, hres⟩
  case lbu rd _ _ =>
    cases h
    obtain ⟨b0, rfl⟩ := List.length_eq_one_iff.mp hlen
    have hv : (beValue 8 [b0]).setWidth 32 = BitVec.ofNat 32 b0.toNat := by rw [beValue_one, BitVec.ofNat_toNat]
    exact (load_gpr rd hread hv).imp fun _ ⟨hu, hres⟩ => ⟨hu, b0, rfl, hres⟩
  case lh rd _ _ =>
    cases h
    obtain ⟨b0, b1, rfl⟩ := List.length_eq_two.mp hlen
    have hv : (beValue 16 [b0, b1]).signExtend 32 = BitVec.ofInt 32 (b0 ++ b1 : BitVec 16).toInt := by
      rw [beValue_two]; rfl
    exact (load_gpr rd hread hv).imp fun _ ⟨hu, hres⟩ => ⟨hu, b0, b1, rfl, hres⟩
  case lhu rd _ _ =>
    cases h
    obtain ⟨b0, b1, rfl⟩ := List.length_eq_two.mp hlen
    have hv : (beValue 16 [b0, b1]).setWidth 32 = BitVec.ofNat 32 (b0 ++ b1 : BitVec 16).toNat := by
      rw [beValue_two, BitVec.ofNat_toNat]
    exact (load_gpr rd hread hv).imp fun _ ⟨hu, hres⟩ => ⟨hu, b0, b1, rfl, hres⟩
  case lw rd _ _ =>
    cases h
    match bs, hlen with
    | [b0, b1, b2, b3], _ =>
      exact (load_gpr rd hread (beValue_four b0 b1 b2 b3)).imp fun _ ⟨hu, hres⟩ => ⟨hu, b0, b1, b2, b3, rfl, hres⟩
  case lf rd _ _ =>
    cases h
    match bs, hlen with
    | [b0, b1, b2, b3], _ =>
      exact (load_fpr rd hread (beValue_four b0 b1 b2 b3)).imp fun _ ⟨hu, hres⟩ => ⟨hu, b0, b1, b2, b3, rfl, hres⟩
  case ld rd _ _ =>
    cases h
    match bs, hlen with
    | [b0, b1, b2, b3, b4, b5, b6, b7], _ =>
      exact (load_dbl rd hread (beValue_eight_words b0 b1 b2 b3 b4 b5 b6 b7)).imp fun _ ⟨hu, hres⟩ =>
        ⟨hu, b0, b1, b2, b3, b4, b5, b6, b7, rfl, hres⟩
  all_goals cases h

end Loads

/-! ### A load after a store (20_memory.md R62) -/

section LoadAfterStore

variable {i j : Instr} {s t : State} {rs1 b : GReg} {imm16 d : Imm16} {n m : Nat} {bs : List Byte}

/-- A load at any aligned and mapped address sees the stored bytes where they lie and the others as before. -/
theorem exec_load_after_store (hwf : Memory.wf s.params.unwrittenRead s.mem = true)
    (hs : storeAccess i = some (rs1, imm16, n)) (hl : loadAccess j = some (b, d, m)) (hexec : exec i s = .next t)
    (hlen : bs.length = m) (ha : (effectiveAddress t b d).toNat % m = 0) (hm : Mapped t (effectiveAddress t b d) m)
    (hbytes : ∀ k < m, bs[k]? =
      if (effectiveAddress s rs1 imm16).toNat ≤ (effectiveAddress t b d).toNat + k ∧
          (effectiveAddress t b d).toNat + k < (effectiveAddress s rs1 imm16).toNat + n then
        (storedBytes s i)[(effectiveAddress t b d).toNat + k - (effectiveAddress s rs1 imm16).toNat]?
      else s.readByte ((effectiveAddress t b d).toNat + k)) :
    ∃ u, exec j t = .next u ∧ LoadResult bs t u j := by
  subst hlen
  have hloadable : Loadable t (effectiveAddress t b d) bs :=
    ⟨ha, hm, fun k hk => (readByte_of_exec_store hwf hs hexec _).trans (hbytes k hk).symm⟩
  exact exec_load_of_memRead hl (memRead_of_loadable (loadAccess_width hl) hloadable)

/-- A load that lies k bytes into a store sees the stored bytes from the k-th on. The store's alignment and mapping
are the load's. -/
theorem exec_load_within_store (hwf : Memory.wf s.params.unwrittenRead s.mem = true)
    (hs : storeAccess i = some (rs1, imm16, n)) (hl : loadAccess j = some (b, d, m)) (hexec : exec i s = .next t)
    {k : Nat} (hea : effectiveAddress t b d = effectiveAddress s rs1 imm16 + BitVec.ofNat 32 k) (hin : k + m ≤ n)
    (hk : m ∣ k) (hn : m ∣ n) (hbs : ((storedBytes s i).drop k).take m = bs) :
    ∃ u, exec j t = .next u ∧ LoadResult bs t u j := by
  obtain ⟨hcheck, ht⟩ := exec_store_next hs hexec
  obtain ⟨haligned, hmapped, hend⟩ := (checkAccess_ok_iff ..).mp hcheck
  have hpos : 0 < m := by rcases loadAccess_width hl with rfl | rfl | rfl | rfl <;> decide
  have haddr : (effectiveAddress t b d).toNat = (effectiveAddress s rs1 imm16).toNat + k := by
    rw [hea, BitVec.toNat_add, BitVec.toNat_ofNat]
    omega
  have hdvd : m ∣ (effectiveAddress s rs1 imm16).toNat + k :=
    (hn.trans (Nat.dvd_of_mod_eq_zero haligned)).add hk
  have hparams : t.params = s.params := by simp [ht]
  refine exec_load_after_store hwf hs hl hexec ?_ ?_ (fun q hq => ?_) (fun q hq => ?_)
  · rw [← hbs, List.length_take, List.length_drop, storedBytes_length hs]
    omega
  · rw [haddr]
    exact Nat.mod_eq_zero_of_dvd hdvd
  · rw [haddr, hparams, Nat.add_assoc]
    exact hmapped (k + q) (by omega)
  · have hinside : (effectiveAddress s rs1 imm16).toNat + k + q - (effectiveAddress s rs1 imm16).toNat = k + q := by
      omega
    rw [haddr, if_pos (by omega), hinside, ← hbs, List.getElem?_take_of_lt hq, List.getElem?_drop]

end LoadAfterStore

/-! ### The parts of a stored word -/

section StoredWord

variable {w : Word} {k : Nat}

/-- The byte at k. -/
theorem wordBytes_byte (hk : k < 4) :
    ((storedBytes.wordBytes w).drop k).take 1 = [w.extractLsb' (8 * (3 - k)) 8] := by
  interval_cases k <;> rfl

/-- The two bytes at 2k. -/
theorem wordBytes_half (hk : k < 2) : ((storedBytes.wordBytes w).drop (2 * k)).take 2 =
    [w.extractLsb' (16 * (1 - k) + 8) 8, w.extractLsb' (16 * (1 - k)) 8] := by
  interval_cases k <;> rfl

/-- Two bytes side by side. -/
theorem half_of_bytes (w : Word) (p : Nat) :
    (w.extractLsb' (p + 8) 8 ++ w.extractLsb' p 8 : BitVec 16) = w.extractLsb' p 16 :=
  BitVec.extractLsb'_append_extractLsb'_eq_extractLsb' rfl

/-- The four bytes side by side. -/
theorem word_of_bytes (w : Word) :
    (w.extractLsb' 24 8 ++ w.extractLsb' 16 8 ++ w.extractLsb' 8 8 ++ w.extractLsb' 0 8 : Word) = w := by
  ext p hp
  simp
  grind

end StoredWord

/-! ### R62's own cases -/

section Cases

variable {s t : State} {rs1 b : GReg} {imm16 d : Imm16} {k : Nat}

/-- LB and LBU of a byte of a stored word. -/
theorem byte_loads_after_sw {rd : GReg} (hwf : Memory.wf s.params.unwrittenRead s.mem = true)
    (hexec : exec (.sw rs1 imm16 rd) s = .next t) (q : GReg) (hk : k < 4)
    (hea : effectiveAddress t b d = effectiveAddress s rs1 imm16 + BitVec.ofNat 32 k) :
    (∃ u, exec (.lb q b d) t = .next u ∧
      GprResult q (BitVec.ofInt 32 ((s.gpr rd).extractLsb' (8 * (3 - k)) 8).toInt) t u) ∧
    ∃ u, exec (.lbu q b d) t = .next u ∧
      GprResult q (BitVec.ofNat 32 ((s.gpr rd).extractLsb' (8 * (3 - k)) 8).toNat) t u := by
  have hload {j : Instr} (hl : loadAccess j = some (b, d, 1)) :=
    exec_load_within_store hwf rfl hl hexec hea (by omega) (one_dvd k) (one_dvd 4) (wordBytes_byte hk)
  constructor
  · obtain ⟨u, hu, b0, hbytes, hres⟩ := hload (j := .lb q b d) rfl
    cases hbytes
    exact ⟨u, hu, hres⟩
  · obtain ⟨u, hu, b0, hbytes, hres⟩ := hload (j := .lbu q b d) rfl
    cases hbytes
    exact ⟨u, hu, hres⟩

/-- LH and LHU of a half of a stored word. -/
theorem half_loads_after_sw {rd : GReg} (hwf : Memory.wf s.params.unwrittenRead s.mem = true)
    (hexec : exec (.sw rs1 imm16 rd) s = .next t) (q : GReg) (hk : k < 2)
    (hea : effectiveAddress t b d = effectiveAddress s rs1 imm16 + BitVec.ofNat 32 (2 * k)) :
    (∃ u, exec (.lh q b d) t = .next u ∧
      GprResult q (BitVec.ofInt 32 ((s.gpr rd).extractLsb' (16 * (1 - k)) 16).toInt) t u) ∧
    ∃ u, exec (.lhu q b d) t = .next u ∧
      GprResult q (BitVec.ofNat 32 ((s.gpr rd).extractLsb' (16 * (1 - k)) 16).toNat) t u := by
  have hload {j : Instr} (hl : loadAccess j = some (b, d, 2)) :=
    exec_load_within_store hwf rfl hl hexec hea (by omega) (Nat.dvd_mul_right 2 k) (by decide) (wordBytes_half hk)
  constructor
  · obtain ⟨u, hu, b0, b1, hbytes, hres⟩ := hload (j := .lh q b d) rfl
    cases hbytes
    rw [half_of_bytes] at hres
    exact ⟨u, hu, hres⟩
  · obtain ⟨u, hu, b0, b1, hbytes, hres⟩ := hload (j := .lhu q b d) rfl
    cases hbytes
    rw [half_of_bytes] at hres
    exact ⟨u, hu, hres⟩

/-- LW of a stored word. -/
theorem lw_after_sw {rd : GReg} (hwf : Memory.wf s.params.unwrittenRead s.mem = true)
    (hexec : exec (.sw rs1 imm16 rd) s = .next t) (q : GReg)
    (hea : effectiveAddress t b d = effectiveAddress s rs1 imm16 + 0#32) :
    ∃ u, exec (.lw q b d) t = .next u ∧ GprResult q (s.gpr rd) t u := by
  obtain ⟨u, hu, b0, b1, b2, b3, hbytes, hres⟩ := exec_load_within_store (j := .lw q b d) hwf rfl rfl hexec
    (k := 0) hea (by decide) (by decide) (by decide) rfl
  cases hbytes
  rw [word_of_bytes] at hres
  exact ⟨u, hu, hres⟩

/-- LF of one word of a stored pair: the word w that stands k bytes into it. -/
theorem lf_after_sd {rd : DReg} {w : Word} (hwf : Memory.wf s.params.unwrittenRead s.mem = true)
    (hexec : exec (.sd rs1 imm16 rd) s = .next t) (q : FReg)
    (hea : effectiveAddress t b d = effectiveAddress s rs1 imm16 + BitVec.ofNat 32 k) (hin : k + 4 ≤ 8) (hk : 4 ∣ k)
    (hw : ((storedBytes s (.sd rs1 imm16 rd)).drop k).take 4 = storedBytes.wordBytes w) :
    ∃ u, exec (.lf q b d) t = .next u ∧ FprResult q w t u := by
  obtain ⟨u, hu, b0, b1, b2, b3, hbytes, hres⟩ := exec_load_within_store (j := .lf q b d) hwf rfl rfl hexec
    hea hin hk (by decide) hw
  cases hbytes
  rw [word_of_bytes] at hres
  exact ⟨u, hu, hres⟩

end Cases

/-- Settles O15: what a byte reads after a store decides what a load sees. -/
theorem mixedWidths : Obligations.mixed_widths := by
  refine ⟨fun i j s t rs1 b imm16 d n m bs => exec_load_after_store, ?_, ?_⟩
  · intro s t rs1 rd q b imm16 d hwf hexec
    refine ⟨fun k => byte_loads_after_sw hwf hexec q, fun k => half_loads_after_sw hwf hexec q, fun hea => ?_⟩
    exact lw_after_sw hwf hexec q (by rw [hea, BitVec.add_zero])
  · intro s t rs1 b rd q imm16 d hwf hexec
    refine ⟨fun hea => ?_, fun hea => ?_⟩
    · exact lf_after_sd (k := 0) hwf hexec q (by rw [hea, BitVec.add_zero]) (by decide) (by decide) rfl
    · exact lf_after_sd (k := 4) hwf hexec q hea (by decide) (by decide) rfl

end Sys2Proof.Machine
end

section
/-! PROOFS. Decoding and encoding (30_encoding.md): the words that decode are those of the well-formed instructions,
under the default ENC and under every legal one (00_scope.md R12); the mask and match rows; and what the assembler makes
of an instruction (R107). -/

namespace Sys2Proof

open Sys2Proof.Config

/-! ### A word and its fields (R91 to R93) -/

/-- Format R drops no bit of a word. -/
theorem packR_eq_iff {w : Word} {op : BitVec 6} {a b c : BitVec 5} {f : BitVec 11} :
    packR op a b c f = w ↔
      opField w = op ∧ rs1Field w = a ∧ rs2Field w = b ∧ rdFieldR w = c ∧ funcField w = f := by
  constructor
  · rintro rfl
    simp
  · rintro ⟨rfl, rfl, rfl, rfl, rfl⟩
    exact packR_fields w

/-- Format I drops no bit of a word. -/
theorem packI_eq_iff {w : Word} {op : BitVec 6} {a b : BitVec 5} {d : Imm16} :
    packI op a b d = w ↔ opField w = op ∧ rs1Field w = a ∧ rdFieldI w = b ∧ imm16Field w = d := by
  constructor
  · rintro rfl
    simp
  · rintro ⟨rfl, rfl, rfl, rfl⟩
    exact packI_fields w

/-- Format J drops no bit of a word. -/
theorem packJ_eq_iff {w : Word} {op : BitVec 6} {o : Off26} :
    packJ op o = w ↔ opField w = op ∧ off26Field w = o := by
  constructor
  · rintro rfl
    simp
  · rintro ⟨rfl, rfl⟩
    exact packJ_fields w

/-- A word's fields are masked by the mask's. -/
theorem masked_fields {w m b : Word} (h : w &&& m = b) :
    opField w &&& opField m = opField b ∧ rs1Field w &&& rs1Field m = rs1Field b ∧
      rs2Field w &&& rs2Field m = rs2Field b ∧ rdFieldR w &&& rdFieldR m = rdFieldR b ∧
      funcField w &&& funcField m = funcField b ∧ rdFieldI w &&& rdFieldI m = rdFieldI b ∧
      imm16Field w &&& imm16Field m = imm16Field b := by
  subst h
  exact ⟨BitVec.extractLsb'_and.symm, BitVec.extractLsb'_and.symm, BitVec.extractLsb'_and.symm,
    BitVec.extractLsb'_and.symm, BitVec.extractLsb'_and.symm, BitVec.extractLsb'_and.symm,
    BitVec.extractLsb'_and.symm⟩

/-- A word bears the default number of another where it has its op, and in the groups its func. -/
theorem hasCode_defaultCode_iff (v w : Word) :
    hasCode (defaultCode v) w = true ↔
      opField w = opField v ∧ (opField v = 0x00#6 ∨ opField v = 0x01#6 → funcField w = funcField v) := by
  unfold defaultCode
  split
  case isTrue hgroup => simp [hasCode, hgroup]
  case isFalse hgroup => simp [hasCode, hgroup]

/-- A word that bears a number is not changed by putting that number in. -/
theorem putCode_of_hasCode {c : OpCode} {w : Word} (h : hasCode c w = true) : putCode c w = w := by
  cases c with
  | primary op => exact packJ_eq_iff.mpr ⟨eq_of_beq h, rfl⟩
  | grouped op func =>
    obtain ⟨hop, hfunc⟩ : opField w = op ∧ funcField w = func := by simpa [hasCode] using h
    exact packR_eq_iff.mpr ⟨hop, rfl, rfl, rfl, hfunc⟩

/-! ### The default ENC (R104, R107) -/

/-- The word of a well-formed instruction takes the instruction's own arm of the decoder: its unused fields are zero,
and the pairs the arm checks are those that well-formedness makes even. -/
theorem decodeWord_encode (i : Instr) : i.wellFormed = true → decodeWord (encode i) = .ok i := by
  cases i
  all_goals
    simp [encode, decodeWord, decodeSpecial, decodeFparith, accept_ok_iff, Instr.wellFormed, isPair_iff, and_assoc]

/-- JR and JALR require a zero immediate too (R103). -/
theorem ok_of_zero_imm {w : Word} {e : DecodeError} {x : Except DecodeError Instr} {i : Instr}
    (h : (if imm16Field w == 0#16 then x else .error e) = .ok i) : imm16Field w = 0#16 ∧ x = .ok i := by
  split at h
  case isTrue hzero => exact ⟨eq_of_beq hzero, h⟩
  case isFalse => cases h

/-- An accepted term is well-formed and has the word where the checks of its arm say so. -/
theorem encode_of_accept {unused pairs : List (BitVec 5)} {i j : Instr} {w : Word} (h : accept unused pairs i = .ok j)
    (hword : (∀ z ∈ unused, z = 0#5) → encode i = w)
    (hwf : (∀ r ∈ pairs, isPair r = true) → i.wellFormed = true) : j.wellFormed = true ∧ encode j = w := by
  obtain ⟨hzero, heven, rfl⟩ := (accept_ok_iff ..).mp h
  exact ⟨hwf fun r hr => (isPair_iff r).mpr (heven r hr), hword hzero⟩

section EncodeOfDecode

variable {w : Word} {i : Instr}

theorem encode_of_decodeSpecial (hop : opField w = 0x00#6) (h : decodeSpecial w = .ok i) :
    i.wellFormed = true ∧ encode i = w := by
  unfold decodeSpecial at h
  split at h
  case h_30 => cases h
  all_goals
    rename funcField w = _ => hfunc
    exact encode_of_accept h (by simp [encode, packR_eq_iff, hop, hfunc]) (by simp [Instr.wellFormed])

theorem encode_of_decodeFparith (hop : opField w = 0x01#6) (h : decodeFparith w = .ok i) :
    i.wellFormed = true ∧ encode i = w := by
  unfold decodeFparith at h
  split at h
  case h_31 => cases h
  all_goals
    rename funcField w = _ => hfunc
    exact encode_of_accept h (by simp [encode, packR_eq_iff, hop, hfunc]) (by simp +contextual [Instr.wellFormed])

/-- A word that decodes is the word of a well-formed instruction: in every arm the fields the term does not hold are
op and func, which chose the arm, and the unused ones, which it checks. -/
theorem encode_of_decodeWord (h : decodeWord w = .ok i) : i.wellFormed = true ∧ encode i = w := by
  unfold decodeWord at h
  split at h
  case h_1 hop => exact encode_of_decodeSpecial hop h
  case h_2 hop => exact encode_of_decodeFparith hop h
  case h_19 hop | h_20 hop =>
    obtain ⟨himm, h⟩ := ok_of_zero_imm h
    exact encode_of_accept h (by simp [encode, packI_eq_iff, hop, himm]) (by simp [Instr.wellFormed])
  case h_48 => cases h
  all_goals
    rename opField w = _ => hop
    exact encode_of_accept h (by simp [encode, packI_eq_iff, packJ_eq_iff, hop]) (by simp [Instr.wellFormed])

end EncodeOfDecode

/-! ### Words with fewer bits

Every check of the decoder asks for bits to be zero (R104 steps 4 and 5), so it passes for a word with fewer of them. -/

/-- Fields with fewer bits pass the checks of an arm. -/
theorem accept_of_fewer_bits {unused pairs unused' pairs' : List (BitVec 5)} {i j k : Instr}
    (h : accept unused pairs i = .ok j) (hunused : ∀ a ∈ unused', ∃ b ∈ unused, a &&& b = a)
    (hpairs : ∀ a ∈ pairs', ∃ b ∈ pairs, a &&& b = a) (hm : k.mnemonic = i.mnemonic) :
    accept unused' pairs' k = .ok k ∧ k.mnemonic = j.mnemonic := by
  obtain ⟨hzero, heven, rfl⟩ := (accept_ok_iff ..).mp h
  refine ⟨(accept_ok_iff ..).mpr ⟨fun a ha => ?_, fun a ha => ?_, rfl⟩, hm⟩
  · obtain ⟨b, hb, hab⟩ := hunused a ha
    rw [← hab, hzero b hb, BitVec.and_zero]
  · obtain ⟨b, hb, hab⟩ := hpairs a ha
    rw [← hab, BitVec.getLsbD_and, heven b hb, Bool.and_false]

section FewerBits

variable {v w : Word} {i : Instr}

theorem decodeSpecial_of_fewer_bits (hw : w &&& v = w) (hfunc : funcField w = funcField v)
    (h : decodeSpecial v = .ok i) : ∃ j, decodeSpecial w = .ok j ∧ j.mnemonic = i.mnemonic := by
  obtain ⟨-, hrs1, hrs2, hrd, -, -, -⟩ := masked_fields hw
  unfold decodeSpecial at h
  split at h
  case h_30 => cases h
  all_goals
    rename funcField v = _ => hv
    rw [decodeSpecial, hfunc, hv]
    exact ⟨_, accept_of_fewer_bits h (by simp [hrs1, hrs2, hrd]) (by simp [hrs1, hrd]) rfl⟩

theorem decodeFparith_of_fewer_bits (hw : w &&& v = w) (hfunc : funcField w = funcField v)
    (h : decodeFparith v = .ok i) : ∃ j, decodeFparith w = .ok j ∧ j.mnemonic = i.mnemonic := by
  obtain ⟨-, hrs1, hrs2, hrd, -, -, -⟩ := masked_fields hw
  unfold decodeFparith at h
  split at h
  case h_31 => cases h
  all_goals
    rename funcField v = _ => hv
    rw [decodeFparith, hfunc, hv]
    exact ⟨_, accept_of_fewer_bits h (by simp [hrs2, hrd]) (by simp [hrs1, hrs2, hrd]) rfl⟩

/-- A word with the number of one that decodes, and with no bit that one lacks, decodes to the same mnemonic. -/
theorem decodeWord_of_fewer_bits (hw : w &&& v = w) (hcode : hasCode (defaultCode v) w = true)
    (h : decodeWord v = .ok i) : ∃ j, decodeWord w = .ok j ∧ j.mnemonic = i.mnemonic := by
  obtain ⟨-, hrs1, -, -, -, hrd, himm⟩ := masked_fields hw
  obtain ⟨hop, hfunc⟩ := (hasCode_defaultCode_iff v w).mp hcode
  unfold decodeWord at h
  split at h
  case h_1 hv =>
    rw [decodeWord, hop, hv]
    exact decodeSpecial_of_fewer_bits hw (hfunc (.inl hv)) h
  case h_2 hv =>
    rw [decodeWord, hop, hv]
    exact decodeFparith_of_fewer_bits hw (hfunc (.inr hv)) h
  case h_19 hv | h_20 hv =>
    obtain ⟨hzero, h⟩ := ok_of_zero_imm h
    have hzero' : imm16Field w = 0#16 := by rw [← himm, hzero, BitVec.and_zero]
    rw [decodeWord, hop, hv, hzero']
    exact ⟨_, accept_of_fewer_bits h (by simp [hrd]) (by simp) rfl⟩
  case h_48 => cases h
  all_goals
    rename opField v = _ => hv
    rw [decodeWord, hop, hv]
    exact ⟨_, accept_of_fewer_bits h (by simp [hrs1, hrd]) (by simp [hrd]) rfl⟩

end FewerBits

/-! ### The mask and match rows (R104) -/

/-- The row's word with every bit set that the mask leaves free. -/
def OpcodeRow.fullWord (r : OpcodeRow) : Word := r.bits ||| ~~~r.mask

/-- A word of the row has no bit that the full one lacks. -/
theorem and_fullWord {w : Word} {r : OpcodeRow} (h : w &&& r.mask = r.bits) : w &&& r.fullWord = w := by
  rw [OpcodeRow.fullWord, ← h]
  ext k hk
  simp only [BitVec.getElem_and, BitVec.getElem_or, BitVec.getElem_not]
  cases w[k] <;> cases r.mask[k] <;> rfl

set_option maxRecDepth 20000 in
/-- A row's full word decodes to the row's mnemonic. -/
theorem decodeWord_fullWord : ∀ r ∈ opcodeRows, (decodeWord r.fullWord).map Instr.mnemonic = .ok r.mnemonic := by
  decide

set_option maxRecDepth 20000 in
/-- A row's mask covers the number of its mnemonic. -/
theorem opcodeRows_mask_code : ∀ r ∈ opcodeRows, defaultCode r.fullWord = defaultCode r.bits ∧
    opField r.mask = BitVec.allOnes 6 ∧
    (opField r.bits = 0x00#6 ∨ opField r.bits = 0x01#6 → funcField r.mask = BitVec.allOnes 11) := by
  decide

set_option maxRecDepth 20000 in
/-- No two rows have one mnemonic. -/
theorem opcodeRows_mnemonic_nodup : (opcodeRows.map (·.mnemonic)).Nodup := by
  decide

/-- The law of each mnemonic, for every instruction. -/
theorem Laws.TableRow.of_instr : ∀ i : Instr, Laws.TableRow.Statement i :=
  @Instr.rec Statement lb lbu lh lhu lw lf ld sb sh sw sf sd movi2fp movfp2i movf movd movi2s movs2i
    add addi addu addui sub subi subu subui mult multu div divu
    and andi or ori xor xori lhi sll srl sra slli srli srai seq sne slt sgt sle sge seqi snei slti sgti slei sgei
    sequ sneu sltu sgtu sleu sgeu sequi sneui sltui sgtui sleui sgeui nop
    beqz bnez bfpt bfpf j jr jal jalr trap rfe
    addd addf subd subf multd multf divd divf cvtf2d cvtd2f cvtf2i cvti2f cvtd2i cvti2d
    eqd ned ltd gtd led ged eqf nef ltf gtf lef gef

section Rows

variable {w : Word} {i : Instr} {r q : OpcodeRow}

/-- A word that decodes is a word of its mnemonic's row. -/
theorem exists_row_of_decodeWord (h : decodeWord w = .ok i) :
    ∃ r ∈ opcodeRows, r.mnemonic = i.mnemonic ∧ w &&& r.mask = r.bits := by
  obtain ⟨hwf, rfl⟩ := encode_of_decodeWord h
  exact Laws.TableRow.of_instr i hwf

theorem eq_of_mnemonic_eq (hr : r ∈ opcodeRows) (hq : q ∈ opcodeRows) (h : r.mnemonic = q.mnemonic) : r = q :=
  List.inj_on_of_nodup_map opcodeRows_mnemonic_nodup hr hq h

/-- A word of a row bears its number. -/
theorem hasCode_of_row (hr : r ∈ opcodeRows) (h : w &&& r.mask = r.bits) :
    hasCode (defaultCode r.bits) w = true := by
  obtain ⟨hop, -, -, -, hfunc, -, -⟩ := masked_fields h
  obtain ⟨-, hmaskOp, hmaskFunc⟩ := opcodeRows_mask_code r hr
  rw [hmaskOp, BitVec.and_allOnes] at hop
  refine (hasCode_defaultCode_iff ..).mpr ⟨hop, fun hgroup => ?_⟩
  rwa [hmaskFunc hgroup, BitVec.and_allOnes] at hfunc

/-- A word of a row decodes to the row's mnemonic, because the row's full word does. -/
theorem decodeWord_of_row (hr : r ∈ opcodeRows) (h : w &&& r.mask = r.bits) :
    ∃ i, decodeWord w = .ok i ∧ i.mnemonic = r.mnemonic := by
  have hcode : hasCode (defaultCode r.fullWord) w = true := by
    obtain ⟨hfullCode, -, -⟩ := opcodeRows_mask_code r hr
    rw [hfullCode]
    exact hasCode_of_row hr h
  have hfull := decodeWord_fullWord r hr
  cases hv : decodeWord r.fullWord with
  | error e => simp [hv, Except.map] at hfull
  | ok j =>
    obtain ⟨i, hi, hm⟩ := decodeWord_of_fewer_bits (and_fullWord h) hcode hv
    have hj : j.mnemonic = r.mnemonic := by simpa [hv, Except.map] using hfull
    exact ⟨i, hi, hm.trans hj⟩

/-- The words of a row are those that decode to its mnemonic. -/
theorem row_iff_decodeWord (hr : r ∈ opcodeRows) :
    w &&& r.mask = r.bits ↔ ∃ i, decodeWord w = .ok i ∧ i.mnemonic = r.mnemonic := by
  refine ⟨decodeWord_of_row hr, fun ⟨i, hi, hm⟩ => ?_⟩
  obtain ⟨q, hq, hqm, hw⟩ := exists_row_of_decodeWord hi
  rwa [eq_of_mnemonic_eq hr hq (hm.symm.trans hqm.symm)]

/-- A word of two rows would decode to two mnemonics. -/
theorem opcodeRows_disjoint :
    opcodeRows.Pairwise (fun r q => ∀ w : Word, ¬(w &&& r.mask = r.bits ∧ w &&& q.mask = q.bits)) := by
  refine (List.pairwise_map.mp opcodeRows_mnemonic_nodup).imp_of_mem fun {r q} hr hq hne w ⟨hwr, hwq⟩ => hne ?_
  obtain ⟨i, hi, hm⟩ := decodeWord_of_row hr hwr
  obtain ⟨j, hj, hn⟩ := decodeWord_of_row hq hwq
  obtain rfl : i = j := by simpa [hi] using hj
  exact hm.symm.trans hn

/-- A word that decodes bears a number of the default ENC. -/
theorem exists_defaultCode_of_decodeWord (h : decodeWord w = .ok i) : ∃ c ∈ defaultCodes, hasCode c w = true := by
  obtain ⟨r, hr, -, hw⟩ := exists_row_of_decodeWord h
  exact ⟨defaultCode r.bits, List.mem_map_of_mem hr, hasCode_of_row hr hw⟩

end Rows

/-! ### Any legal ENC (00_scope.md R12) -/

section LegalEnc

variable {enc : Enc} {i : Instr} {w : Word} (he : encLegal enc = true)

include he

/-- A legal ENC has a number for each default one. -/
theorem exists_fromDefaultWord (h : ∃ c ∈ defaultCodes, hasCode c w = true) :
    ∃ v, fromDefaultWord enc w = some v := by
  cases enc with
  | standard => exact ⟨w, rfl⟩
  | table ls =>
    obtain ⟨-, -, hperm, -⟩ := (encLegal_table_iff ls).mp he
    obtain ⟨c, hc, hw⟩ := h
    obtain ⟨l, hl, rfl⟩ := List.mem_map.mp (hperm.mem_iff.mpr hc)
    have hfind := find_line (standards_apart hperm) hl hw
    exact ⟨_, congrArg (Option.map fun l : EncLine => putCode l.code w) hfind⟩

theorem exists_encodeWith (hwf : i.wellFormed = true) : ∃ w, encodeWith enc i = some w :=
  exists_fromDefaultWord he (exists_defaultCode_of_decodeWord (decodeWord_encode i hwf))

theorem decodeWith_of_encodeWith (hwf : i.wellFormed = true) (h : encodeWith enc i = some w) :
    decodeWith enc w = .ok i := by
  rw [decodeWith, toDefaultWord_of_fromDefaultWord he h]
  exact decodeWord_encode i hwf

theorem encodeWith_of_decodeWith (h : decodeWith enc w = .ok i) :
    i.wellFormed = true ∧ encodeWith enc i = some w := by
  unfold decodeWith at h
  split at h
  case h_1 v hv =>
    obtain ⟨hwf, rfl⟩ := encode_of_decodeWord h
    exact ⟨hwf, fromDefaultWord_of_toDefaultWord he hv⟩
  case h_2 => cases h

end LegalEnc

/-- Four bytes decode as the word they hold. -/
theorem decodeBytesWith_beBytes (enc : Enc) (w : Word) (rest : List Byte) :
    decodeBytesWith enc (beBytes 4 w ++ rest) = (decodeWith enc w).map (fun i => (i, rest)) := by
  have hword := beValue_beBytes_four w
  simp only [beBytes, List.cons_append, List.nil_append, decodeBytesWith] at hword ⊢
  rw [hword]

theorem decodeBytesWith_of_encodeBytesWith {enc : Enc} (he : encLegal enc = true) {i : Instr}
    (hwf : i.wellFormed = true) {bs : List Byte} (h : encodeBytesWith enc i = some bs) (rest : List Byte) :
    decodeBytesWith enc (bs ++ rest) = .ok (i, rest) := by
  obtain ⟨w, hw, rfl⟩ := Option.map_eq_some_iff.mp h
  rw [decodeBytesWith_beBytes, decodeWith_of_encodeWith he hwf hw]
  rfl

/-! ### The default ENC as a table -/

/-- The default ENC written out, line by line. -/
def defaultTable : Enc := .table (defaultCodes.map (fun c => ⟨c, c⟩))

set_option maxRecDepth 20000 in
/-- The default func values are zero in the upper five bits (R103). -/
theorem defaultCodes_keep_format : ∀ c ∈ defaultCodes, lineKeepsFormat ⟨c, c⟩ = true := by
  decide

set_option maxRecDepth 20000 in
/-- The source's three lines are lines of the default ENC. -/
theorem fixedLines_default : ∀ l ∈ fixedLines, l.standard ∈ defaultCodes ∧ l = ⟨l.standard, l.standard⟩ := by
  decide

theorem defaultTable_legal : encLegal defaultTable = true := by
  have hstandards : (defaultCodes.map (fun c => (⟨c, c⟩ : EncLine))).map (·.standard) = defaultCodes := by
    rw [List.map_map]
    exact List.map_id _
  refine (encLegal_table_iff _).mpr ⟨List.pairwise_map.mpr defaultCodes_apart, ?_, .of_eq hstandards, ?_⟩
  · exact List.forall_mem_map.mpr defaultCodes_keep_format
  · intro l hl
    obtain ⟨hmem, hline⟩ := fixedLines_default l hl
    exact List.mem_map.mpr ⟨l.standard, hmem, hline.symm⟩

/-- A line of it puts the number in that the word bears. -/
theorem toDefaultWord_defaultTable {v w : Word} (h : toDefaultWord defaultTable w = some v) : v = w := by
  obtain ⟨l, hl, rfl⟩ := Option.map_eq_some_iff.mp h
  have hw := List.find?_some (p := fun (l : EncLine) => hasCode l.code w) hl
  obtain ⟨c, -, rfl⟩ := List.mem_map.mp (List.mem_of_find?_eq_some hl)
  exact putCode_of_hasCode hw

/-- An instruction has the same word under the default ENC and its table. -/
theorem eq_encode_of_encodeWith_defaultTable {w : Word} {i : Instr} (h : encodeWith defaultTable i = some w) :
    encode i = w :=
  toDefaultWord_defaultTable (toDefaultWord_of_fromDefaultWord defaultTable_legal h)

theorem decodeWith_defaultTable_iff {w : Word} {i : Instr} :
    decodeWith defaultTable w = .ok i ↔ decodeWord w = .ok i := by
  constructor
  · intro h
    obtain ⟨hwf, hw⟩ := encodeWith_of_decodeWith defaultTable_legal h
    obtain rfl := eq_encode_of_encodeWith_defaultTable hw
    exact decodeWord_encode i hwf
  · intro h
    obtain ⟨hwf, rfl⟩ := encode_of_decodeWord h
    obtain ⟨w, hw⟩ := exists_encodeWith defaultTable_legal hwf
    rw [eq_encode_of_encodeWith_defaultTable hw]
    exact decodeWith_of_encodeWith defaultTable_legal hwf hw

/-! ### The statements about words -/

/-- Settles O2, by the round trip of the default ENC and that of the translation of words. -/
theorem decodeOfEncode : Obligations.decode_of_encode := by
  intro enc i rest he hwf
  obtain ⟨w, hw⟩ := exists_encodeWith he hwf
  have hbytes : encodeBytesWith enc i = some (beBytes 4 w) := congrArg (Option.map (beBytes 4)) hw
  refine ⟨⟨_, hbytes, beBytes_length 4 w, decodeBytesWith_of_encodeBytesWith he hwf hbytes rest⟩, ?_⟩
  rintro rfl
  refine ⟨encodeBytesWith_standard i, ?_⟩
  rw [← decodeBytesWith_standard]
  exact decodeBytesWith_of_encodeBytesWith he hwf (encodeBytesWith_standard i) rest

/-- Settles O3, by the arms of the decoder. -/
theorem encodeOfDecode : Obligations.encode_of_decode :=
  fun _ _ _ he h => encodeWith_of_decodeWith he h

/-- Settles O4, by the full word of each row. -/
theorem decodeIsTheOpcodeTable : Obligations.decode_is_the_opcode_table := by
  refine ⟨fun w r hr => row_iff_decodeWord hr, fun w i h => ?_, opcodeRows_disjoint, defaultTable_legal,
    fun w i => decodeWith_defaultTable_iff⟩
  obtain ⟨r, hr, hm, -⟩ := exists_row_of_decodeWord h
  exact ⟨r, hr, hm.symm⟩

/-- Settles O1, by running the decoder on the thirteen words. -/
theorem sampleWordsDecode : Obligations.sample_words_decode := by
  unfold Obligations.sample_words_decode
  decide

end Sys2Proof

namespace Sys2Proof.Machine

open Sys2Proof.Config

/-! ### What the assembler makes of an instruction (R107, 45_assembler.md R300) -/

/-- The shape's terms are well-formed, those with pairs where the pairs are even. -/
def AsmShape.MakesWellFormed : AsmShape → Prop
  | .regs3 mk => ∀ d a b, (mk d a b).wellFormed = true
  | .regsImm _ mk => ∀ d a v, (mk d a v).wellFormed = true
  | .regImm mk => ∀ d v, (mk d v).wellFormed = true
  | .loadG mk => ∀ d a v, (mk d a v).wellFormed = true
  | .loadF mk => ∀ d a v, (mk d a v).wellFormed = true
  | .loadD mk => ∀ d a v, isPair d = true → (mk d a v).wellFormed = true
  | .storeG mk => ∀ a v r, (mk a v r).wellFormed = true
  | .storeF mk => ∀ a v r, (mk a v r).wellFormed = true
  | .storeD mk => ∀ a v r, isPair r = true → (mk a v r).wellFormed = true
  | .fprGpr mk => ∀ d a, (mk d a).wellFormed = true
  | .gprFpr mk => ∀ d a, (mk d a).wellFormed = true
  | .specialGpr mk => ∀ d a, (mk d a).wellFormed = true
  | .gprSpecial mk => ∀ d a, (mk d a).wellFormed = true
  | .fprs2 mk => ∀ d a, (mk d a).wellFormed = true
  | .dbls2 mk => ∀ d a, isPair d = true → isPair a = true → (mk d a).wellFormed = true
  | .dblFpr mk => ∀ d a, isPair d = true → (mk d a).wellFormed = true
  | .fprDbl mk => ∀ d a, isPair a = true → (mk d a).wellFormed = true
  | .fprs3 mk => ∀ d a b, (mk d a b).wellFormed = true
  | .dbls3 mk => ∀ d a b, isPair d = true → isPair a = true → isPair b = true → (mk d a b).wellFormed = true
  | .regDest mk => ∀ a v, (mk a v).wellFormed = true
  | .dest16 mk => ∀ v, (mk v).wellFormed = true
  | .dest26 mk => ∀ v, (mk v).wellFormed = true
  | .reg mk => ∀ a, (mk a).wellFormed = true
  | .trapImm mk => ∀ v, (mk v).wellFormed = true
  | .none i => i.wellFormed = true

/-- The shape of every mnemonic asks for pairs where its instruction has them. -/
theorem asmShapes_makesWellFormed : ∀ p ∈ asmShapes, p.2.MakesWellFormed := by
  rw [← List.forall_iff_forall_mem]
  and_intros
  all_goals simp +contextual [AsmShape.MakesWellFormed, Instr.wellFormed]

theorem isPair_of_fitPair {r : FReg} {p : DReg} (h : fitPair r = .ok p) : isPair p = true := by
  unfold fitPair at h
  split at h
  case isTrue heven =>
    cases h
    exact heven
  case isFalse => cases h

/-- What a shape assembles to is well-formed: every pair among its operands passed fitPair. -/
theorem AsmShape.assemble_wellFormed {shape : AsmShape} (hs : shape.MakesWellFormed) {syms : AsmSymbols} {addr : Nat}
    {ops : List AsmOperand} {i : Instr} (h : shape.assemble syms addr ops = .ok i) : i.wellFormed = true := by
  unfold AsmShape.assemble at h
  split at h
  -- registers alone, or no operand
  case h_1 | h_10 | h_11 | h_14 | h_18 | h_23 | h_25 =>
    cases h
    exact hs ..
  -- the name of the special register
  case h_12 | h_13 =>
    split at h
    case isTrue =>
      cases h
      exact hs ..
    case isFalse => cases h
  -- an address or a Dest
  case h_4 | h_5 | h_7 | h_8 | h_20 | h_21 | h_22 =>
    obtain ⟨_, -, h⟩ := bind_ok h
    cases h
    exact hs ..
  -- an immediate
  case h_2 | h_3 | h_24 =>
    obtain ⟨_, -, h⟩ := bind_ok h
    obtain ⟨_, -, h⟩ := bind_ok h
    cases h
    exact hs ..
  -- an address and a pair
  case h_6 | h_9 =>
    obtain ⟨_, -, h⟩ := bind_ok h
    obtain ⟨p, hp, h⟩ := bind_ok h
    cases h
    exact hs _ _ _ (isPair_of_fitPair hp)
  -- one pair
  case h_16 | h_17 =>
    obtain ⟨p, hp, h⟩ := bind_ok h
    cases h
    exact hs _ _ (isPair_of_fitPair hp)
  -- two pairs
  case h_15 =>
    obtain ⟨p, hp, h⟩ := bind_ok h
    obtain ⟨q, hq, h⟩ := bind_ok h
    cases h
    exact hs _ _ (isPair_of_fitPair hp) (isPair_of_fitPair hq)
  -- three pairs
  case h_19 =>
    obtain ⟨p, hp, h⟩ := bind_ok h
    obtain ⟨q, hq, h⟩ := bind_ok h
    obtain ⟨r, hr, h⟩ := bind_ok h
    cases h
    exact hs _ _ _ (isPair_of_fitPair hp) (isPair_of_fitPair hq) (isPair_of_fitPair hr)
  -- operands of no shape
  case h_26 => cases h

theorem assembleInstr_wellFormed {syms : AsmSymbols} {addr : Nat} {m : String} {ops : List AsmOperand} {i : Instr}
    (h : assembleInstr syms addr m ops = .ok i) : i.wellFormed = true := by
  unfold assembleInstr at h
  split at h
  case h_1 shape hshape =>
    obtain ⟨before, after, hshapes, -⟩ := List.lookup_eq_some_iff.mp hshape
    have hmem : (m, shape) ∈ asmShapes := by simp [hshapes]
    exact AsmShape.assemble_wellFormed (asmShapes_makesWellFormed _ hmem) h
  case h_2 => cases h

/-- The bytes of an instruction's statement are those of the term it stands for. -/
theorem bytes_of_instruction {enc : Enc} {syms : AsmSymbols} {addr : Nat} {m : String} {ops : List AsmOperand}
    {bs : List Byte} {code : Bool} (h : (AsmStatement.instruction m ops).bytes enc syms addr = .ok (bs, code)) :
    ∃ i, assembleInstr syms addr m ops = .ok i ∧ encodeBytesWith enc i = some bs := by
  rw [AsmStatement.bytes] at h
  split at h
  case isTrue =>
    obtain ⟨i, hi, h⟩ := bind_ok h
    obtain ⟨bs', hbs, h⟩ := bind_ok h
    cases h
    refine ⟨i, hi, ?_⟩
    unfold fitInstr at hbs
    split at hbs
    case h_1 hsome =>
      cases hbs
      exact hsome
    case h_2 => cases hbs
  case isFalse => cases h

/-- Settles O60: the assembled term is well-formed, so O2's round trip gives it back. -/
theorem assembledInstructionsDecode : Obligations.assembled_instructions_decode := by
  intro enc syms addr m ops bs he h
  obtain ⟨i, hi, hbytes⟩ := bytes_of_instruction h
  have hwf := assembleInstr_wellFormed hi
  have hdecode := decodeBytesWith_of_encodeBytesWith he hwf hbytes []
  exact ⟨i, hi, hwf, by rwa [List.append_nil] at hdecode⟩

end Sys2Proof.Machine
end

section
/-! PROOFS. The data transfer instructions (40_data_transfer.md): the effective address, loads and stores that complete,
and the moves. -/

namespace Sys2Proof.Machine

/-! ### The effective address (R130) -/

/-- The effective address as an exact integer cut to 32 bits: sign extension keeps the displacement's value. -/
theorem effectiveAddress_eq_ofInt (s : State) (rs1 : GReg) (imm16 : Imm16) :
    effectiveAddress s rs1 imm16 = BitVec.ofInt 32 ((s.gpr rs1).toNat + imm16.toInt) := by
  rw [BitVec.ofInt_add, BitVec.ofInt_natCast, BitVec.ofNat_toNat, BitVec.setWidth_eq]
  rfl

/-- Settles O21: cutting an integer to 32 bits is its remainder modulo 2^32. -/
theorem effectiveAddresses : Obligations.effective_addresses := by
  intro s rs1 imm16
  rw [effectiveAddress_eq_ofInt, BitVec.toNat_ofInt]
  exact Int.toNat_of_nonneg (Int.emod_nonneg _ (by decide))

/-! ### Loads that complete (R131 to R137) -/

section Loads

variable {j : Instr} {s t : State} {b : GReg} {d : Imm16} {bs : List Byte}

/-- A load of loadable bytes completes and puts them where its rule says. -/
theorem exec_load_of_loadable (hl : loadAccess j = some (b, d, bs.length))
    (h : Loadable s (effectiveAddress s b d) bs) : ∃ t, exec j s = .next t ∧ LoadResult bs s t j :=
  exec_load_of_memRead hl (memRead_of_loadable (loadAccess_width hl) h)

/-- The number of two bytes side by side (20_memory.md R61). -/
theorem toNat_append_bytes (b0 b1 : Byte) : (b0 ++ b1 : BitVec 16).toNat = b0.toNat * 256 + b1.toNat := by
  rw [BitVec.toNat_append, ← Nat.shiftLeft_add_eq_or_of_lt b1.isLt, Nat.shiftLeft_eq]

/-- A pair that holds two words side by side holds the first in its even register (10_state.md R37). -/
theorem DblResult.words {rd : DReg} {hi lo : Word} (h : DblResult rd (hi ++ lo : DWord) s t) :
    t.fpr rd = hi ∧ t.fpr (rd + 1#5) = lo :=
  ⟨h.high.trans BitVec.extractLsb'_append_eq_left, h.low.trans BitVec.extractLsb'_append_eq_right⟩

end Loads

/-- Settles O16, by what a load of one or two bytes leaves. -/
theorem narrowLoads : Obligations.narrow_loads := by
  intro s rd rs1 imm16 b0 b1
  refine ⟨fun h => ⟨?_, ?_⟩, fun h => ⟨?_, ?_⟩⟩
  · obtain ⟨t, ht, _, ⟨⟩, hres⟩ := exec_load_of_loadable (j := .lb rd rs1 imm16) rfl h
    exact ⟨t, ht, hres⟩
  · obtain ⟨t, ht, _, ⟨⟩, hres⟩ := exec_load_of_loadable (j := .lbu rd rs1 imm16) rfl h
    exact ⟨t, ht, hres⟩
  · obtain ⟨t, ht, _, _, ⟨⟩, hres⟩ := exec_load_of_loadable (j := .lh rd rs1 imm16) rfl h
    exact ⟨t, ht, hres⟩
  · obtain ⟨t, ht, _, _, ⟨⟩, hres⟩ := exec_load_of_loadable (j := .lhu rd rs1 imm16) rfl h
    exact ⟨t, ht, toNat_append_bytes b0 b1 ▸ hres⟩

/-- Settles O17, by what a load of four or eight bytes leaves. -/
theorem wideLoads : Obligations.wide_loads := by
  intro s rs1 imm16 b0 b1 b2 b3 b4 b5 b6 b7
  refine ⟨fun h => ⟨fun rd => ?_, fun rd => ?_⟩, fun h rd => ?_⟩
  · obtain ⟨t, ht, _, _, _, _, ⟨⟩, hres⟩ := exec_load_of_loadable (j := .lw rd rs1 imm16) rfl h
    exact ⟨t, ht, hres⟩
  · obtain ⟨t, ht, _, _, _, _, ⟨⟩, hres⟩ := exec_load_of_loadable (j := .lf rd rs1 imm16) rfl h
    exact ⟨t, ht, hres⟩
  · obtain ⟨t, ht, _, _, _, _, _, _, _, _, ⟨⟩, hres⟩ := exec_load_of_loadable (j := .ld rd rs1 imm16) rfl h
    obtain ⟨hhigh, hlow⟩ := hres.words
    exact ⟨t, ht, hhigh, hlow, hres.toDblFrame⟩

/-! ### Stores that complete (R138 to R142) -/

section Stores

variable {i : Instr} {s : State} {rs1 : GReg} {imm16 : Imm16} {n : Nat}

/-- A store accesses one, two, four or eight bytes (20_memory.md R65). -/
theorem storeAccess_width (h : storeAccess i = some (rs1, imm16, n)) : n = 1 ∨ n = 2 ∨ n = 4 ∨ n = 8 := by
  cases i <;> cases h <;> simp

/-- A store to a storable address completes and places its bytes there. -/
theorem exec_store_of_storable (hwf : Memory.wf s.params.unwrittenRead s.mem = true)
    (h : storeAccess i = some (rs1, imm16, n)) (hst : Storable s (effectiveAddress s rs1 imm16) n) :
    ∃ t, exec i s = .next t ∧ StoreResult (effectiveAddress s rs1 imm16).toNat (storedBytes s i) s t := by
  obtain rfl := storedBytes_length (s := s) h
  have hwrite := memWrite_of_storable (storeAccess_width h) hst
  have hnext := (store_next_iff ..).mpr ⟨_, hwrite, rfl⟩
  exact ⟨_, (exec_eq_store h).trans hnext, storeResult_writeBytes hwf _ _⟩

end Stores

/-- Settles O19: the five are stores, and their bytes are those of `storedBytes`. -/
theorem stores : Obligations.stores := by
  intro s rs1 imm16 hwf
  refine ⟨fun rd => ?_, fun rd => ?_, fun rd => ?_, fun rd => ?_, fun rd => ?_⟩
  · exact exec_store_of_storable (i := .sb rs1 imm16 rd) hwf rfl
  · exact exec_store_of_storable (i := .sh rs1 imm16 rd) hwf rfl
  · exact exec_store_of_storable (i := .sw rs1 imm16 rd) hwf rfl
  · exact exec_store_of_storable (i := .sf rs1 imm16 rd) hwf rfl
  · exact exec_store_of_storable (i := .sd rs1 imm16 rd) hwf rfl

/-! ### Moves (R143 to R146) -/

/-- Settles O22: each move is one write of the bits it has read. -/
theorem moves : Obligations.moves := fun s =>
  ⟨fun rd rs1 => ⟨_, rfl, fprResult_setFpr rd (s.gpr rs1) s⟩,
    fun rd rs1 => ⟨_, rfl, gprResult_setGpr rd (s.fpr rs1) s⟩,
    fun rd rs1 => ⟨_, rfl, fprResult_setFpr rd (s.fpr rs1) s⟩,
    fun rd rs1 => ⟨_, rfl, dblResult_setDbl rd (s.dbl rs1) s⟩⟩

end Sys2Proof.Machine
end

section
/-! PROOFS. Integer arithmetic (41_arithmetic.md): exact results through ovf_S, low 32 bits, and division. -/

namespace Sys2Proof.Machine

open Sys2Proof.Config

/-! ### The result check ovf_S (R161) -/

section Checked

variable {p : OvfPolicy} {i : Int} {w v : Word} {s t : State}

theorem fitsSigned_iff : fitsSigned i = true ↔ -2 ^ 31 ≤ i ∧ i ≤ 2 ^ 31 - 1 := by simp [fitsSigned]

/-- `ovf_S` answers the low 32 bits where the integer fits or the policy is wrap. -/
theorem ovfS_ok (h : (-2 ^ 31 ≤ i ∧ i ≤ 2 ^ 31 - 1) ∨ p = .wrap) : ovfS p i = .ok (BitVec.ofInt 32 i) := by
  cases hfits : fitsSigned i with
  | true => exact ovfS_of_fits hfits
  | false =>
    obtain hi | rfl := h
    · simp [fitsSigned_iff.mpr hi] at hfits
    · exact ovfS_of_not_fits hfits

/-- Under the policy fault, `ovf_S` of an integer that does not fit is IntegerOverflow. -/
theorem ovfS_overflow (h : i < -2 ^ 31 ∨ 2 ^ 31 - 1 < i) : ovfS .fault i = .error .integerOverflow := by
  refine ovfS_of_not_fits (Bool.eq_false_iff.mpr fun hfits => ?_)
  have := fitsSigned_iff.mp hfits
  omega

/-- What `ovf_S` answers is the low 32 bits, under either policy (R164). -/
theorem eq_ofInt_of_ovfS (h : ovfS p i = .ok w) : w = BitVec.ofInt 32 i := by
  cases hfits : fitsSigned i with
  | true =>
    cases (ovfS_of_fits hfits).symm.trans h
    rfl
  | false =>
    cases p with
    | fault => cases (ovfS_of_not_fits hfits).symm.trans h
    | wrap =>
      cases (ovfS_of_not_fits hfits).symm.trans h
      rfl

variable (rd : GReg)

theorem writeGpr_completes : ∃ t, writeGpr rd v s = .next t ∧ GprResult rd v s t :=
  ⟨_, rfl, gprResult_setGpr rd v s⟩

theorem writeSigned_completes (h : (-2 ^ 31 ≤ i ∧ i ≤ 2 ^ 31 - 1) ∨ s.params.ovfPolicy = .wrap) :
    ∃ t, writeSigned rd i s = .next t ∧ GprResult rd (BitVec.ofInt 32 i) s t :=
  ⟨_, (writeGprChecked_next_iff ..).mpr ⟨_, ovfS_ok h, rfl⟩, gprResult_setGpr rd _ s⟩

theorem writeSigned_overflow (hp : s.params.ovfPolicy = .fault) (h : i < -2 ^ 31 ∨ 2 ^ 31 - 1 < i) :
    writeSigned rd i s = .fault .integerOverflow :=
  (writeGprChecked_fault_iff ..).mpr (hp ▸ ovfS_overflow h)

/-- A signed write that completes is the plain write of the low 32 bits. -/
theorem writeGpr_of_writeSigned (h : writeSigned rd i s = .next t) :
    writeGpr rd (BitVec.ofInt 32 i) s = .next t := by
  obtain ⟨w, hw, rfl⟩ := (writeGprChecked_next_iff ..).mp h
  rw [← eq_ofInt_of_ovfS hw]
  rfl

end Checked

/-! ### Immediates: their values survive the extension (30_encoding.md R101, R162) -/

theorem toInt_sextImm (imm16 : Imm16) : (sextImm imm16).toInt = imm16.toInt :=
  BitVec.toInt_signExtend_of_le (by decide)

theorem exec_addi (rd rs1 : GReg) (imm16 : Imm16) (s : State) :
    exec (.addi rd rs1 imm16) s = writeSigned rd ((s.gpr rs1).toInt + imm16.toInt) s := by
  rw [← toInt_sextImm]
  rfl

theorem exec_subi (rd rs1 : GReg) (imm16 : Imm16) (s : State) :
    exec (.subi rd rs1 imm16) s = writeSigned rd ((s.gpr rs1).toInt - imm16.toInt) s := by
  rw [← toInt_sextImm]
  rfl

/-- Settles O24: each is one signed write of its exact result. -/
theorem signedArithmetic : Obligations.signed_arithmetic := by
  intro s rd rs1 rs2 imm16
  rw [exec_addi, exec_subi]
  exact ⟨writeSigned_completes rd, writeSigned_completes rd, writeSigned_completes rd, writeSigned_completes rd,
    writeSigned_completes rd⟩

/-- Settles O25: each is one signed write of its exact result. -/
theorem signedOverflow : Obligations.signed_overflow := by
  intro s rd rs1 rs2 imm16 hp
  rw [exec_addi, exec_subi]
  exact ⟨writeSigned_overflow rd hp, writeSigned_overflow rd hp, writeSigned_overflow rd hp,
    writeSigned_overflow rd hp, writeSigned_overflow rd hp⟩

/-! ### Exact results cut to 32 bits (R161, R162)

`BitVec.ofInt 32` carries the operations on integers to those on words, whichever way the operands are read. -/

theorem ofInt_toNat_word (x : Word) : BitVec.ofInt 32 x.toNat = x := by
  rw [BitVec.ofInt_natCast, BitVec.ofNat_toNat, BitVec.setWidth_eq]

theorem ofInt_toNat_imm (imm16 : Imm16) : BitVec.ofInt 32 imm16.toNat = zextImm imm16 := by
  rw [BitVec.ofInt_natCast, BitVec.ofNat_toNat]
  rfl

theorem ofInt_sub (a b : Int) : BitVec.ofInt 32 (a - b) = BitVec.ofInt 32 a - BitVec.ofInt 32 b := by
  rw [Int.sub_eq_add_neg, BitVec.ofInt_add, BitVec.ofInt_neg, BitVec.sub_eq_add_neg]

/-- Settles O26: the low 32 bits of each exact result are the word that is written. -/
theorem unsignedArithmetic : Obligations.unsigned_arithmetic := by
  intro s rd rs1 rs2 imm16
  simp only [BitVec.ofInt_add, ofInt_sub, BitVec.ofInt_mul, ofInt_toNat_word, ofInt_toNat_imm]
  exact ⟨writeGpr_completes rd, writeGpr_completes rd, writeGpr_completes rd, writeGpr_completes rd,
    writeGpr_completes rd⟩

/-- Settles O27: the low 32 bits of the signed result are those the unsigned form writes. -/
theorem signedAndUnsignedAgree : Obligations.signed_and_unsigned_agree := by
  intro s t rd rs1 rs2
  refine ⟨fun h => ?add, fun h => ?sub, fun h => ?mult⟩
  all_goals
    have hwrite := writeGpr_of_writeSigned rd h
    simp only [BitVec.ofInt_add, ofInt_sub, BitVec.ofInt_mul, BitVec.ofInt_toInt] at hwrite
    exact hwrite

/-! ### Division (R163) -/

/-- The quotient rounded toward zero in the terms of R163. -/
theorem tdiv_eq_sign_mul_natAbs (a b : Int) : a.tdiv b = a.sign * b.sign * (a.natAbs / b.natAbs : Nat) := by
  have hparts : a.tdiv b = (a.tdiv b).sign * (a.natAbs / b.natAbs : Nat) := by
    conv_lhs => rw [← Int.sign_mul_natAbs (a.tdiv b), Int.natAbs_tdiv]
    rfl
  rw [hparts, Int.sign_tdiv]
  split
  case isTrue hlt => simp [Nat.div_eq_of_lt hlt]
  case isFalse => rfl

/-- Every quotient fits but that of -2^31 by -1. -/
theorem tdiv_fits {x y : Word} (h : ¬(x = 0x80000000#32 ∧ y = 0xFFFFFFFF#32)) :
    -2 ^ 31 ≤ x.toInt.tdiv y.toInt ∧ x.toInt.tdiv y.toInt ≤ 2 ^ 31 - 1 := by
  rw [← BitVec.toInt_sdiv_of_ne_or_ne x y (not_and_or.mp h)]
  exact ⟨BitVec.le_toInt _, BitVec.toInt_le⟩

section Divisions

variable (rd rs1 rs2 : GReg) {s : State}

theorem exec_div_zero (h : s.gpr rs2 = 0#32) : exec (.div rd rs1 rs2) s = .fault .divideByZero := if_pos h

theorem exec_divu_zero (h : s.gpr rs2 = 0#32) : exec (.divu rd rs1 rs2) s = .fault .divideByZero := if_pos h

theorem exec_div_of_ne_zero (h : s.gpr rs2 ≠ 0#32) :
    exec (.div rd rs1 rs2) s = writeSigned rd ((s.gpr rs1).toInt.tdiv (s.gpr rs2).toInt) s := if_neg h

theorem exec_divu_of_ne_zero (h : s.gpr rs2 ≠ 0#32) : exec (.divu rd rs1 rs2) s =
    writeGpr rd (BitVec.ofNat 32 ((s.gpr rs1).toNat / (s.gpr rs2).toNat)) s := if_neg h

end Divisions

/-- Settles O28: a zero divisor is checked first; then DIV is a signed write and DIVU a plain one. -/
theorem division : Obligations.division := by
  intro s rd rs1 rs2
  refine ⟨fun h0 => ⟨exec_div_zero rd rs1 rs2 h0, exec_divu_zero rd rs1 rs2 h0⟩, fun h0 => ?_⟩
  rw [exec_div_of_ne_zero rd rs1 rs2 h0, exec_divu_of_ne_zero rd rs1 rs2 h0, ← tdiv_eq_sign_mul_natAbs]
  refine ⟨writeGpr_completes rd, fun h => writeSigned_completes rd (h.imp_left tdiv_fits), ?_⟩
  rintro ⟨hx, hy⟩ hp
  have hbig : 2 ^ 31 - 1 < (s.gpr rs1).toInt.tdiv (s.gpr rs2).toInt := by
    rw [hx, hy]
    decide
  exact writeSigned_overflow rd hp (.inr hbig)

end Sys2Proof.Machine
end

section
/-! PROOFS. Logic, shifts and set-conditionals (42_logical.md): bit by bit, by powers of two, and by relations of the
operands' values. -/

namespace Sys2Proof.Machine

open Sys2Proof.Config

/-! ### Bit by bit (R181 to R187) -/

section Bits

variable (imm16 : Imm16) {k : Nat}

theorem getLsbD_zextImm (hk : k < 32) : (zextImm imm16).getLsbD k = (decide (k < 16) && imm16.getLsbD k) := by
  rw [zextImm, BitVec.getLsbD_setWidth]
  cases h : imm16.getLsbD k with
  | true => simp [hk, BitVec.lt_of_getLsbD h]
  | false => simp

theorem getLsbD_highImm : (highImm imm16).getLsbD k = (decide (16 ≤ k) && imm16.getLsbD (k - 16)) := by
  rw [highImm, BitVec.getLsbD_append, BitVec.getLsbD_zero]
  split
  case isTrue hlow => simp [hlow]
  case isFalse hhigh => simp [Nat.le_of_not_lt hhigh]

end Bits

/-- Settles O29: each is one write of the word whose bits the words' own operations give. -/
theorem bitwiseLogic : Obligations.bitwise_logic := by
  intro s rd rs1 rs2 imm16
  refine ⟨s.gpr rs1 &&& s.gpr rs2, s.gpr rs1 &&& zextImm imm16, s.gpr rs1 ||| s.gpr rs2, s.gpr rs1 ||| zextImm imm16,
    s.gpr rs1 ^^^ s.gpr rs2, s.gpr rs1 ^^^ zextImm imm16, highImm imm16, fun k hk => ?bits,
    writeGpr_completes rd, writeGpr_completes rd, writeGpr_completes rd, writeGpr_completes rd,
    writeGpr_completes rd, writeGpr_completes rd, writeGpr_completes rd⟩
  simp only [BitVec.getLsbD_and, BitVec.getLsbD_or, BitVec.getLsbD_xor, getLsbD_zextImm imm16 hk,
    getLsbD_highImm, and_self]

/-! ### Shifts (R188 to R194) -/

/-- Bits 4 to 0 of any pattern are its value modulo 32. -/
theorem toNat_lowFive {w : Nat} (x : BitVec w) : (x.extractLsb' 0 5).toNat = x.toNat % 32 := by
  rw [BitVec.extractLsb'_toNat, Nat.shiftRight_zero]

theorem shiftReg_eq_mod (s : State) (rs2 : GReg) : shiftReg s rs2 = (s.gpr rs2).toNat % 32 := toNat_lowFive _

theorem shiftImm_eq_mod (imm16 : Imm16) : shiftImm imm16 = imm16.toNat % 32 := toNat_lowFive _

section Shifted

variable (x : Word) (n : Nat)

theorem ofNat_mul_two_pow : BitVec.ofNat 32 (x.toNat * 2 ^ n) = x <<< n := by
  rw [← Nat.shiftLeft_eq]
  rfl

theorem ofNat_div_two_pow : BitVec.ofNat 32 (x.toNat / 2 ^ n) = x >>> n := by
  rw [← Nat.shiftRight_eq_div_pow, ← BitVec.toNat_ushiftRight, BitVec.ofNat_toNat, BitVec.setWidth_eq]

theorem ofInt_div_two_pow : BitVec.ofInt 32 (x.toInt / 2 ^ n) = x.sshiftRight n := by
  rw [BitVec.sshiftRight, Int.shiftRight_eq_div_pow, Nat.cast_pow, Nat.cast_ofNat]

end Shifted

/-- Settles O30: each exact result, cut to 32 bits, is the shifted word that is written. -/
theorem shifts : Obligations.shifts := by
  intro s rd rs1 rs2 imm16
  simp only [← shiftReg_eq_mod, ← shiftImm_eq_mod, ofNat_mul_two_pow, ofNat_div_two_pow, ofInt_div_two_pow]
  exact ⟨writeGpr_completes rd, writeGpr_completes rd, writeGpr_completes rd, writeGpr_completes rd,
    writeGpr_completes rd, writeGpr_completes rd⟩

/-! ### Set-conditionals (R195)

A register and an extended immediate are both a word of a known value, so one lemma for each reading of words serves
the twelve instructions of that reading. -/

section Relations

variable (a b : Int)

@[simp] theorem relHolds_eq_iff : relHolds .eq a b = true ↔ a = b := decide_eq_true_iff
@[simp] theorem relHolds_ne_iff : relHolds .ne a b = true ↔ a ≠ b := decide_eq_true_iff
@[simp] theorem relHolds_lt_iff : relHolds .lt a b = true ↔ a < b := decide_eq_true_iff
@[simp] theorem relHolds_gt_iff : relHolds .gt a b = true ↔ a > b := decide_eq_true_iff
@[simp] theorem relHolds_le_iff : relHolds .le a b = true ↔ a ≤ b := decide_eq_true_iff
@[simp] theorem relHolds_ge_iff : relHolds .ge a b = true ↔ a ≥ b := decide_eq_true_iff

end Relations

section Sets

variable (rd : GReg) {x y : Word} {r : Rel} {p : Prop} [Decidable p] {s : State}

theorem setWord_completes {c : Bool} (h : c = true ↔ p) :
    ∃ t, writeGpr rd (setWord c) s = .next t ∧ GprResult rd (if p then 1#32 else 0#32) s t := by
  rw [← ite_cond_congr (propext h)]
  exact writeGpr_completes rd

/-- A signed set-conditional whose second operand has the signed value `b`. -/
theorem signedSet_completes {b : Int} (hy : y.toInt = b) (h : relHolds r x.toInt b = true ↔ p) :
    ∃ t, writeGpr rd (setWord (relSigned r x y)) s = .next t ∧ GprResult rd (if p then 1#32 else 0#32) s t := by
  subst hy
  exact setWord_completes rd h

/-- An unsigned set-conditional whose second operand has the unsigned value `b`. -/
theorem unsignedSet_completes {b : Nat} (hy : y.toNat = b) (h : relHolds r x.toNat b = true ↔ p) :
    ∃ t, writeGpr rd (setWord (relUnsigned r x y)) s = .next t ∧ GprResult rd (if p then 1#32 else 0#32) s t := by
  subst hy
  exact setWord_completes rd h

end Sets

theorem toNat_zextImm (imm16 : Imm16) : (zextImm imm16).toNat = imm16.toNat :=
  BitVec.toNat_setWidth_of_le (by decide)

/-- Settles O31: sign extension keeps the immediate's signed value. -/
theorem setConditionalSigned : Obligations.set_conditional_signed := by
  intro s rd rs1 rs2 imm16
  have himm := toInt_sextImm imm16
  exact ⟨signedSet_completes rd rfl (relHolds_eq_iff ..), signedSet_completes rd rfl (relHolds_ne_iff ..),
    signedSet_completes rd rfl (relHolds_lt_iff ..), signedSet_completes rd rfl (relHolds_gt_iff ..),
    signedSet_completes rd rfl (relHolds_le_iff ..), signedSet_completes rd rfl (relHolds_ge_iff ..),
    signedSet_completes rd himm (relHolds_eq_iff ..), signedSet_completes rd himm (relHolds_ne_iff ..),
    signedSet_completes rd himm (relHolds_lt_iff ..), signedSet_completes rd himm (relHolds_gt_iff ..),
    signedSet_completes rd himm (relHolds_le_iff ..), signedSet_completes rd himm (relHolds_ge_iff ..)⟩

/-- Settles O32: zero extension keeps the immediate's unsigned value, and a relation of two naturals is that of the
integers they are. -/
theorem setConditionalUnsigned : Obligations.set_conditional_unsigned := by
  intro s rd rs1 rs2 imm16
  have himm := toNat_zextImm imm16
  refine ⟨unsignedSet_completes rd rfl ?_, unsignedSet_completes rd rfl ?_, unsignedSet_completes rd rfl ?_,
    unsignedSet_completes rd rfl ?_, unsignedSet_completes rd rfl ?_, unsignedSet_completes rd rfl ?_,
    unsignedSet_completes rd himm ?_, unsignedSet_completes rd himm ?_, unsignedSet_completes rd himm ?_,
    unsignedSet_completes rd himm ?_, unsignedSet_completes rd himm ?_, unsignedSet_completes rd himm ?_⟩
  all_goals simp

end Sys2Proof.Machine
end

section
/-! PROOFS. The control transfers (43_control.md): branches, jumps and links, and NOP beside them. -/

namespace Sys2Proof.Machine

/-! ### The addresses of a control transfer (R230, R231) -/

/-- An exact integer added to an address and cut to 32 bits is added as a word. -/
theorem ofInt_toNat_add (x : Word) (i : Int) : BitVec.ofInt 32 (x.toNat + i) = x + BitVec.ofInt 32 i := by
  rw [BitVec.ofInt_add, ofInt_toNat_word]

section Targets

variable (s : State)

theorem branchTarget_eq_ofInt (imm16 : Imm16) :
    branchTarget s imm16 = BitVec.ofInt 32 (s.pc.toNat + imm16.toInt) :=
  (ofInt_toNat_add s.pc imm16.toInt).symm

theorem jumpTarget_eq_ofInt (off26 : Off26) :
    jumpTarget s off26 = BitVec.ofInt 32 (s.pc.toNat + off26.toInt) :=
  (ofInt_toNat_add s.pc off26.toInt).symm

theorem linkValue_eq_ofInt : linkValue s = BitVec.ofInt 32 (s.pc.toNat + 4) :=
  (ofInt_toNat_add s.pc 4).symm

end Targets

/-! ### Branches (R235 to R238) -/

/-- Advancing is a jump to the next instruction, the address a link saves. -/
theorem jumpResult_advance (s : State) : JumpResult (linkValue s) s s.advance := jumpResult_jump (linkValue s) s

section Branches

variable {taken : Bool} {p : Prop} [Decidable p] {target : Word} {s : State}

/-- A branch taken where `p` holds. -/
theorem branch_completes_if (h : taken = true ↔ p) :
    ∃ t, branch taken target s = .next t ∧ JumpResult (if p then target else linkValue s) s t := by
  cases taken with
  | true =>
    rw [if_pos (h.mp rfl)]
    exact ⟨_, rfl, jumpResult_jump target s⟩
  | false =>
    rw [if_neg (h.not.mp Bool.false_ne_true)]
    exact ⟨_, rfl, jumpResult_advance s⟩

/-- A branch taken where `p` fails. -/
theorem branch_completes_unless (h : taken = true ↔ ¬p) :
    ∃ t, branch taken target s = .next t ∧ JumpResult (if p then linkValue s else target) s t := by
  rw [← ite_not]
  exact branch_completes_if h

end Branches

/-- Settles O33: NOP only advances, and each branch is taken by the condition of its rule. -/
theorem branchesAndNop : Obligations.branches_and_nop := by
  intro s rs1 imm16
  rw [← branchTarget_eq_ofInt, ← linkValue_eq_ofInt]
  exact ⟨⟨_, rfl, jumpResult_advance s⟩, branch_completes_if beq_iff_eq, branch_completes_unless bne_iff_ne,
    branch_completes_if Iff.rfl, branch_completes_unless (by simp)⟩

/-! ### Jumps (R239 to R242) -/

/-- Settles O34: each is one jump, after the link where there is one; `LinkResult` reads a register target in the state
before the link. -/
theorem jumpsAndLinks : Obligations.jumps_and_links := by
  intro s rs1 off26
  rw [← jumpTarget_eq_ofInt]
  exact ⟨⟨_, rfl, jumpResult_jump (jumpTarget s off26) s⟩, ⟨_, rfl, jumpResult_jump (s.gpr rs1) s⟩,
    ⟨_, rfl, linkResult_jump (jumpTarget s off26) s⟩, ⟨_, rfl, linkResult_jump (s.gpr rs1) s⟩⟩

end Sys2Proof.Machine
end

section
/-! PROOFS. Floating-point patterns (44_floating_point.md R250): a pattern is a sign and a magnitude, and the magnitude
of a finite number is read off its significand and exponent. -/

namespace Sys2Proof.Machine

/-- Fields wide enough for what both formats share. -/
structure FpFormat.Wide (φ : FpFormat) : Prop where
  exp : 2 ≤ φ.expBits
  frac : 1 ≤ φ.fracBits

theorem FpFormat.wide_binary32 : binary32.Wide := ⟨by decide, by decide⟩
theorem FpFormat.wide_binary64 : binary64.Wide := ⟨by decide, by decide⟩

/-- m * 2^e is written as R250 does: the leading bit is 1 but at the least exponent. -/
structure FpFormat.Canonical (φ : FpFormat) (m : Nat) (e : Int) : Prop where
  low : φ.minExp ≤ e
  fits : m < 2 ^ (φ.fracBits + 1)
  full : e = φ.minExp ∨ 2 ^ φ.fracBits ≤ m

/-- The pattern of m * 2^e without its sign: the leading bit of m counts as one in the exponent field. -/
def FpFormat.magBits (φ : FpFormat) (m : Nat) (e : Int) : Nat := (e - φ.minExp).toNat * 2 ^ φ.fracBits + m

/-- The sign of a number as a factor. -/
def signRat (neg : Bool) : ℚ := if neg then -1 else 1

@[simp] theorem signRat_true : signRat true = -1 := rfl
@[simp] theorem signRat_false : signRat false = 1 := rfl

theorem signRat_mul_self (neg : Bool) : signRat neg * signRat neg = 1 := by cases neg <;> norm_num

@[simp] theorem abs_signRat (neg : Bool) : |signRat neg| = 1 := by cases neg <;> norm_num

theorem signRat_ne_zero (neg : Bool) : signRat neg ≠ 0 := by cases neg <;> norm_num

theorem signRat_xor (n m : Bool) : signRat (n ^^ m) = signRat n * signRat m := by
  cases n <;> cases m <;> norm_num

theorem FpValue.toRat_finite (neg : Bool) (m : Nat) (e : Int) :
    (FpValue.finite neg m e).toRat = signRat neg * (m * (2 : ℚ) ^ e) := mul_assoc ..

theorem FpValue.finite_of_isFinite {v : FpValue} (h : v.isFinite = true) : ∃ n m e, v = .finite n m e := by
  cases v with
  | nan => cases h
  | inf n => cases h
  | finite n m e => exact ⟨n, m, e, rfl⟩

namespace FpFormat

variable {φ : FpFormat} {neg : Bool} {m n bits : Nat} {e : Int}

/-! ### Fields -/

theorem maxField_lt : φ.maxField < 2 ^ φ.expBits := Nat.sub_lt (by positivity) one_pos

theorem maxField_mul_lt : φ.maxField * 2 ^ φ.fracBits < 2 ^ (φ.expBits + φ.fracBits) := by
  rw [Nat.pow_add]
  exact Nat.mul_lt_mul_of_pos_right maxField_lt (by positivity)

theorem signBit_div (h : n < 2 ^ (φ.expBits + φ.fracBits)) :
    ((φ.signBit neg + n) / 2 ^ (φ.expBits + φ.fracBits) % 2 == 1) = neg := by
  cases neg
  · simp [signBit, Nat.div_eq_of_lt h]
  · simp [signBit, Nat.div_eq_of_lt h]

theorem two_pow_dvd_signBit : 2 ^ (φ.expBits + φ.fracBits) ∣ φ.signBit neg := by
  cases neg
  · exact dvd_zero _
  · exact dvd_rfl

theorem signBit_mod : φ.signBit neg % 2 ^ (φ.expBits + φ.fracBits) = 0 :=
  Nat.mod_eq_zero_of_dvd two_pow_dvd_signBit

/-- The fields of a pattern that is a sign and a magnitude. -/
theorem decode_signBit_add (h : n < 2 ^ (φ.expBits + φ.fracBits)) : φ.decode (φ.signBit neg + n) =
    if n / 2 ^ φ.fracBits = φ.maxField then (if n % 2 ^ φ.fracBits = 0 then .inf neg else .nan)
    else if n / 2 ^ φ.fracBits = 0 then .finite neg (n % 2 ^ φ.fracBits) φ.minExp
    else .finite neg (2 ^ φ.fracBits + n % 2 ^ φ.fracBits) (φ.minExp + (n / 2 ^ φ.fracBits : Nat) - 1) := by
  have hfrac : (φ.signBit neg + n) % 2 ^ φ.fracBits = n % 2 ^ φ.fracBits := by
    have hdvd : 2 ^ φ.fracBits ∣ φ.signBit neg :=
      (Nat.pow_dvd_pow 2 (Nat.le_add_left _ _)).trans two_pow_dvd_signBit
    rw [Nat.add_mod, Nat.mod_eq_zero_of_dvd hdvd, Nat.zero_add, Nat.mod_mod]
  have hfield : (φ.signBit neg + n) / 2 ^ φ.fracBits % 2 ^ φ.expBits = n / 2 ^ φ.fracBits := by
    rw [← Nat.mod_mul_right_div_self, ← Nat.pow_add, Nat.add_comm φ.fracBits, Nat.add_mod, signBit_mod, Nat.zero_add,
      Nat.mod_mod, Nat.mod_eq_of_lt h]
  unfold decode
  rw [signBit_div h, hfrac, hfield]

/-- The sign, exponent and fraction fields of a pattern, put together. -/
theorem mod_eq_fields : bits % 2 ^ (φ.expBits + φ.fracBits + 1) =
    φ.signBit (bits / 2 ^ (φ.expBits + φ.fracBits) % 2 == 1) +
      (bits / 2 ^ φ.fracBits % 2 ^ φ.expBits * 2 ^ φ.fracBits + bits % 2 ^ φ.fracBits) := by
  have hsign : φ.signBit (bits / 2 ^ (φ.expBits + φ.fracBits) % 2 == 1) =
      2 ^ (φ.expBits + φ.fracBits) * (bits / 2 ^ (φ.expBits + φ.fracBits) % 2) := by
    obtain h | h := Nat.mod_two_eq_zero_or_one (bits / 2 ^ (φ.expBits + φ.fracBits)) <;> simp [h, signBit]
  rw [hsign, Nat.pow_succ, Nat.mod_mul, Nat.add_comm φ.expBits, Nat.pow_add, Nat.mod_mul]
  ring

/-- What a finite number's pattern is made of. -/
structure Holds (φ : FpFormat) (bits : Nat) (neg : Bool) (m : Nat) (e : Int) : Prop extends φ.Canonical m e where
  below : φ.magBits m e < φ.maxField * 2 ^ φ.fracBits
  pattern : bits % 2 ^ (φ.expBits + φ.fracBits + 1) = φ.signBit neg + φ.magBits m e

theorem fields_lt {field frac : Nat} (hfield : field < 2 ^ φ.expBits) (hmax : field ≠ φ.maxField)
    (hfrac : frac < 2 ^ φ.fracBits) : field * 2 ^ φ.fracBits + frac < φ.maxField * 2 ^ φ.fracBits := by
  have hlt : field + 1 ≤ φ.maxField := by
    unfold maxField at hmax ⊢
    omega
  calc field * 2 ^ φ.fracBits + frac < (field + 1) * 2 ^ φ.fracBits := by
        rw [Nat.succ_mul]
        exact Nat.add_lt_add_left hfrac _
    _ ≤ φ.maxField * 2 ^ φ.fracBits := Nat.mul_le_mul_right _ hlt

theorem magBits_subnormal (φ : FpFormat) (frac : Nat) : φ.magBits frac φ.minExp = 0 * 2 ^ φ.fracBits + frac := by
  simp [magBits]

theorem magBits_normal (φ : FpFormat) {field : Nat} (h : field ≠ 0) (frac : Nat) :
    φ.magBits (2 ^ φ.fracBits + frac) (φ.minExp + field - 1) = field * 2 ^ φ.fracBits + frac := by
  obtain ⟨k, rfl⟩ := Nat.exists_eq_succ_of_ne_zero h
  have hk : (φ.minExp + (k.succ : Nat) - 1 - φ.minExp).toNat = k := by omega
  rw [magBits, hk, Nat.succ_mul, Nat.add_assoc]

theorem holds_of_decode (h : φ.decode bits = .finite neg m e) : φ.Holds bits neg m e := by
  have hfields := mod_eq_fields (φ := φ) (bits := bits)
  have hfrac : bits % 2 ^ φ.fracBits < 2 ^ φ.fracBits := Nat.mod_lt _ (by positivity)
  have hbelow := fields_lt (Nat.mod_lt (bits / 2 ^ φ.fracBits) (Nat.two_pow_pos φ.expBits)) (hfrac := hfrac)
  have hsucc : 2 ^ (φ.fracBits + 1) = 2 * 2 ^ φ.fracBits := Nat.pow_succ'
  unfold decode at h
  dsimp only at h
  split at h
  case isTrue => split at h <;> cases h
  case isFalse hmax =>
    split at h
    case isTrue hzero =>
      cases h
      have hmag := φ.magBits_subnormal (bits % 2 ^ φ.fracBits)
      rw [← hzero] at hmag
      exact ⟨⟨le_rfl, by omega, .inl rfl⟩, hmag ▸ hbelow hmax, hmag ▸ hfields⟩
    case isFalse hnz =>
      cases h
      have hmag := φ.magBits_normal hnz (bits % 2 ^ φ.fracBits)
      exact ⟨⟨by omega, by omega, .inr (Nat.le_add_right _ _)⟩, hmag ▸ hbelow hmax, hmag ▸ hfields⟩

theorem magBits_lt (h : φ.magBits m e < φ.maxField * 2 ^ φ.fracBits) :
    φ.magBits m e < 2 ^ (φ.expBits + φ.fracBits) := h.trans maxField_mul_lt

/-- The pattern of a number written as R250 does holds this number. -/
theorem decode_magBits (hc : φ.Canonical m e) (h : φ.magBits m e < φ.maxField * 2 ^ φ.fracBits) :
    φ.decode (φ.signBit neg + φ.magBits m e) = .finite neg m e := by
  have hpos : 0 < 2 ^ φ.fracBits := by positivity
  have hne : φ.magBits m e / 2 ^ φ.fracBits ≠ φ.maxField := ((Nat.div_lt_iff_lt_mul hpos).mpr h).ne
  rw [decode_signBit_add (magBits_lt h), if_neg hne]
  have hlow := hc.low
  obtain hsub | hfull := lt_or_ge m (2 ^ φ.fracBits)
  · have he : e = φ.minExp := hc.full.resolve_right (by omega)
    subst he
    have hmag : φ.magBits m φ.minExp = m := by simp [magBits]
    rw [hmag, Nat.div_eq_of_lt hsub, Nat.mod_eq_of_lt hsub, if_pos rfl]
  · obtain ⟨frac, rfl⟩ := Nat.exists_eq_add_of_le hfull
    have hfits := hc.fits
    have hfrac : frac < 2 ^ φ.fracBits := by
      rw [Nat.pow_succ] at hfits
      omega
    have hmag : φ.magBits (2 ^ φ.fracBits + frac) e = frac + ((e - φ.minExp).toNat + 1) * 2 ^ φ.fracBits := by
      unfold magBits
      ring
    rw [hmag, Nat.add_mul_div_right _ _ hpos, Nat.add_mul_mod_self_right, Nat.div_eq_of_lt hfrac,
      Nat.mod_eq_of_lt hfrac, if_neg (by omega)]
    congr 1
    omega

/-- A significand one past the largest is the least of the next exponent. -/
theorem magBits_carry (h : φ.minExp ≤ e) : φ.magBits (2 ^ (φ.fracBits + 1)) e = φ.magBits (2 ^ φ.fracBits) (e + 1) := by
  have hk : (e + 1 - φ.minExp).toNat = (e - φ.minExp).toNat + 1 := by omega
  rw [magBits, magBits, hk]
  ring

theorem isNegative_signBit_add (h : n < 2 ^ (φ.expBits + φ.fracBits)) : φ.isNegative (φ.signBit neg + n) = neg := by
  rw [isNegative, Nat.testBit_eq_decide_div_mod_eq]
  exact (beq_eq_decide _ _).symm.trans (signBit_div h)

theorem signBit_lt : φ.signBit neg + 2 ^ (φ.expBits + φ.fracBits) ≤ 2 ^ (φ.expBits + φ.fracBits + 1) := by
  rw [Nat.pow_succ]
  cases neg <;> simp [signBit, Nat.mul_two]

end FpFormat

end Sys2Proof.Machine
end

section
/-! PROOFS. Rounding (44_floating_point.md R251): the binade of a positive number fixes the unit its significand counts,
and the significand is the integer nearest to the number in that unit. -/

namespace Sys2Proof.Machine

/-! ### Powers of two -/

theorem zpow_two_pos (i : Int) : (0 : ℚ) < 2 ^ i := zpow_pos two_pos i

theorem zpow_two_add (i j : Int) : (2 : ℚ) ^ (i + j) = 2 ^ i * 2 ^ j := zpow_add₀ two_ne_zero i j

theorem zpow_two_le {i j : Int} (h : i ≤ j) : (2 : ℚ) ^ i ≤ 2 ^ j := zpow_le_zpow_right₀ one_le_two h

theorem lt_of_zpow_two_lt {i j : Int} (h : (2 : ℚ) ^ i < 2 ^ j) : i < j := (zpow_lt_zpow_iff_right₀ one_lt_two).mp h

/-- A power of two as the quotient of two integers. -/
theorem zpow_two_eq_div (i : Int) : (2 : ℚ) ^ i = (2 ^ i.toNat : Nat) / (2 ^ (-i).toNat : Nat) := by
  have hi : i = (i.toNat : Int) - ((-i).toNat : Int) := by omega
  conv_lhs => rw [hi, zpow_sub₀ two_ne_zero, zpow_natCast, zpow_natCast]
  push_cast
  rfl

theorem two_pow_mul_zpow (n : Nat) (i : Int) : ((2 ^ n : Nat) : ℚ) * 2 ^ i = 2 ^ (i + n) := by
  rw [zpow_two_add, zpow_natCast, mul_comm]
  push_cast
  rfl

theorem zpow_two_toNat {i j : Int} (h : j ≤ i) : (2 : ℚ) ^ i = (2 ^ (i - j).toNat : Nat) * 2 ^ j := by
  rw [two_pow_mul_zpow, Int.toNat_of_nonneg (sub_nonneg.mpr h), add_sub_cancel]

/-- The numerator and the denominator that `round` divides. -/
theorem scaled_div (num den : Nat) (i : Int) :
    ((num * 2 ^ i.toNat : Nat) : ℚ) / (den * 2 ^ (-i).toNat : Nat) = num / den * 2 ^ i := by
  rw [zpow_two_eq_div]
  push_cast
  exact mul_div_mul_comm ..

/-! ### The binary logarithm -/

theorem zpow_log2_le {n : Nat} (h : 0 < n) : (2 : ℚ) ^ (n.log2 : Int) ≤ n := by
  rw [zpow_natCast]
  exact_mod_cast Nat.log2_self_le h.ne'

theorem lt_zpow_log2 (n : Nat) : (n : ℚ) < 2 ^ ((n.log2 : Int) + 1) := by
  rw [← Nat.cast_succ, zpow_natCast]
  exact_mod_cast Nat.lt_log2_self

section Ratio

variable {num den : Nat}

theorem log2Ratio_guard (hden : 0 < den) (l : Int) :
    den * 2 ^ l.toNat ≤ num * 2 ^ (-l).toNat ↔ (2 : ℚ) ^ l ≤ num / den := by
  rw [zpow_two_eq_div, div_le_div_iff₀ (by positivity) (by positivity), mul_comm den]
  norm_cast

/-- `log2Ratio` is the floor of the binary logarithm. -/
theorem log2Ratio_spec (hnum : 0 < num) (hden : 0 < den) :
    (2 : ℚ) ^ log2Ratio num den ≤ num / den ∧ (num : ℚ) / den < 2 ^ (log2Ratio num den + 1) := by
  have hden' : (0 : ℚ) < den := by exact_mod_cast hden
  unfold log2Ratio
  generalize hl : (num.log2 : Int) - den.log2 = l
  have hupper : (num : ℚ) / den < 2 ^ (l + 1) := by
    rw [div_lt_iff₀ hden']
    calc (num : ℚ) < 2 ^ ((num.log2 : Int) + 1) := lt_zpow_log2 num
      _ = 2 ^ (l + 1) * 2 ^ (den.log2 : Int) := by
        rw [← zpow_two_add]
        congr 1
        omega
      _ ≤ 2 ^ (l + 1) * den := by gcongr; exact zpow_log2_le hden
  have hlower : (2 : ℚ) ^ (l - 1) ≤ num / den := by
    rw [le_div_iff₀ hden']
    calc (2 : ℚ) ^ (l - 1) * den ≤ 2 ^ (l - 1) * 2 ^ ((den.log2 : Int) + 1) := by gcongr; exact (lt_zpow_log2 den).le
      _ = 2 ^ (num.log2 : Int) := by
        rw [← zpow_two_add]
        congr 1
        omega
      _ ≤ num := zpow_log2_le hnum
  dsimp only
  split
  case isTrue hguard => exact ⟨(log2Ratio_guard hden l).mp hguard, hupper⟩
  case isFalse hguard =>
    rw [sub_add_cancel]
    exact ⟨hlower, not_le.mp fun h => hguard ((log2Ratio_guard hden l).mpr h)⟩

end Ratio

/-! ### The nearest integer -/

/-- m is an integer nearest to y, the even one of two. -/
structure NearestEven (y : ℚ) (m : Nat) : Prop where
  near : |y - m| ≤ 1 / 2
  even : |y - m| = 1 / 2 → m % 2 = 0

/-- The integer part or the next integer, by the fraction. -/
theorem nearestEven_of_fraction (m : Nat) {r : ℚ} (h0 : 0 ≤ r) (h1 : r < 1) :
    NearestEven (m + r) (if 1 / 2 < r ∨ r = 1 / 2 ∧ m % 2 = 1 then m + 1 else m) := by
  split
  case isTrue hup =>
    have hdist : |(m : ℚ) + r - (m + 1 : Nat)| = 1 - r := by
      rw [abs_sub_comm, abs_of_nonneg] <;> push_cast <;> linarith
    have hhalf : 1 / 2 ≤ r := hup.elim le_of_lt fun h => h.1.ge
    refine ⟨by linarith, fun htie => ?_⟩
    obtain hgt | ⟨-, hodd⟩ := hup
    · linarith
    · omega
  case isFalse hdown =>
    obtain ⟨hle, htie⟩ := not_or.mp hdown
    have hdist : |(m : ℚ) + r - m| = r := by rw [add_sub_cancel_left, abs_of_nonneg h0]
    rw [← hdist] at hle htie
    exact ⟨not_lt.mp hle, fun h => Nat.mod_two_ne_one.mp (not_and.mp htie h)⟩

theorem nearestEven_roundHalfEven (num : Nat) {den : Nat} (hden : 0 < den) :
    NearestEven ((num : ℚ) / den) (roundHalfEven num den) := by
  have hden' : (0 : ℚ) < den := by exact_mod_cast hden
  have hsplit : (num : ℚ) / den = (num / den : Nat) + (num % den : Nat) / den := by
    rw [div_eq_iff hden'.ne', add_mul, div_mul_cancel₀ _ hden'.ne']
    exact_mod_cast (Nat.div_add_mod' num den).symm
  have hlt : den < 2 * (num % den) ↔ 1 / 2 < ((num % den : Nat) : ℚ) / den := by
    rw [div_lt_div_iff₀ two_pos hden', one_mul, mul_comm _ (2 : ℚ)]
    norm_cast
  have heq : 2 * (num % den) = den ↔ ((num % den : Nat) : ℚ) / den = 1 / 2 := by
    rw [div_eq_div_iff hden'.ne' two_ne_zero, one_mul, mul_comm _ (2 : ℚ)]
    norm_cast
  rw [hsplit, roundHalfEven]
  simp only [Bool.or_eq_true, Bool.and_eq_true, decide_eq_true_eq, beq_iff_eq, hlt, heq]
  exact nearestEven_of_fraction _ (by positivity) ((div_lt_one hden').mpr (by exact_mod_cast Nat.mod_lt num hden))

namespace NearestEven

variable {y : ℚ} {m k : Nat}

theorem le_add_half (h : NearestEven y m) : y ≤ m + 1 / 2 := by linarith [(abs_le.mp h.near).2]

theorem sub_half_le (h : NearestEven y m) : (m : ℚ) - 1 / 2 ≤ y := by linarith [(abs_le.mp h.near).1]

/-- Below half a unit under k the nearest integer is below k. -/
theorem lt_of_lt (h : NearestEven y m) (hy : y < k - 1 / 2) : m < k := by
  have : (m : ℚ) < k := by linarith [h.sub_half_le]
  exact_mod_cast this

theorem le_of_le (h : NearestEven y m) (hy : y ≤ k) : m ≤ k := by
  have : (m : ℚ) < (k + 1 : Nat) := by
    push_cast
    linarith [h.sub_half_le]
  exact Nat.lt_succ_iff.mp (by exact_mod_cast this)

theorem ge_of_ge (h : NearestEven y m) (hy : (k : ℚ) ≤ y) : k ≤ m := by
  have : (k : ℚ) < (m + 1 : Nat) := by
    push_cast
    linarith [h.le_add_half]
  exact Nat.lt_succ_iff.mp (by exact_mod_cast this)

/-- From half a unit under an even k on the nearest integer is at least k. -/
theorem ge_of_half_le (h : NearestEven y m) (heven : k % 2 = 0) (hy : (k : ℚ) - 1 / 2 ≤ y) : k ≤ m := by
  by_contra hlt
  have hmk : ((m + 1 : Nat) : ℚ) ≤ k := by exact_mod_cast not_le.mp hlt
  push_cast at hmk
  have htie : |y - m| = 1 / 2 := le_antisymm h.near ((by linarith : 1 / 2 ≤ y - m).trans (le_abs_self _))
  have hm := h.even htie
  have hnext : (k : ℚ) = (m + 1 : Nat) := by
    push_cast
    linarith [h.le_add_half]
  have : k = m + 1 := by exact_mod_cast hnext
  omega

theorem eq_of_natCast (h : NearestEven k m) : m = k := le_antisymm (h.le_of_le le_rfl) (h.ge_of_ge le_rfl)

/-- Another integer is at least half a unit away. -/
theorem half_le_dist (h : NearestEven y m) {k : Int} (hne : k ≠ m) : 1 / 2 ≤ |y - k| := by
  have hone : (1 : ℚ) ≤ |(k : ℚ) - m| := by exact_mod_cast Int.one_le_abs (sub_ne_zero.mpr hne)
  have htri : |(k : ℚ) - m| ≤ |y - k| + |y - m| := by
    rw [abs_sub_comm y k]
    exact abs_sub_le (k : ℚ) y m
  linarith [h.near]

theorem dist_le (h : NearestEven y m) (k : Int) : |y - m| ≤ |y - k| := by
  obtain rfl | hne := eq_or_ne k m
  · exact le_rfl
  · exact h.near.trans (h.half_le_dist hne)

theorem even_of_tie (h : NearestEven y m) {k : Int} (hne : k ≠ m) (htie : |y - k| = |y - m|) : m % 2 = 0 :=
  h.even (le_antisymm h.near (htie ▸ h.half_le_dist hne))

end NearestEven

namespace FpFormat

variable {φ : FpFormat} {x c : ℚ} {q : Int} {m n : Nat} {neg : Bool}

/-! ### The binade of a positive number -/

/-- q is the exponent of the unit in which a positive x has its significand. -/
structure Binade (φ : FpFormat) (x : ℚ) (q : Int) : Prop where
  low : φ.minExp ≤ q
  below : x < 2 ^ (q + φ.fracBits + 1)
  full : q = φ.minExp ∨ (2 : ℚ) ^ (q + φ.fracBits) ≤ x

theorem Binade.eq {q' : Int} (h : φ.Binade x q) (h' : φ.Binade x q') : q = q' := by
  have hle : ∀ {i j : Int}, φ.Binade x i → φ.Binade x j → i ≤ j := by
    intro i j hi hj
    obtain rfl | hfull := hi.full
    · exact hj.low
    · have := lt_of_zpow_two_lt (hfull.trans_lt hj.below)
      omega
  exact le_antisymm (hle h h') (hle h' h)

/-- The unit that `round` counts in. -/
theorem binade_quantum {num den : Nat} (hnum : 0 < num) (hden : 0 < den) (exp : Int) :
    φ.Binade (num / den * 2 ^ exp) (φ.quantum num den exp) := by
  obtain ⟨hlo, hhi⟩ := log2Ratio_spec hnum hden
  unfold quantum
  generalize log2Ratio num den = l at hlo hhi
  have hlo' : (2 : ℚ) ^ (l + exp) ≤ num / den * 2 ^ exp := by
    rw [zpow_two_add]
    gcongr
  have hhi' : (num : ℚ) / den * 2 ^ exp < 2 ^ (l + exp + 1) := by
    rw [add_right_comm, zpow_two_add]
    gcongr
  refine ⟨le_max_right .., hhi'.trans_le (zpow_two_le ?_), ?_⟩
  · have := le_max_left (l + exp - φ.fracBits) φ.minExp
    omega
  · obtain hle | hge := le_total (l + exp - φ.fracBits) φ.minExp
    · exact .inl (max_eq_right hle)
    · rw [max_eq_left hge, sub_add_cancel]
      exact .inr hlo'

/-- A number written as R250 does is in the binade of its exponent. -/
theorem Canonical.binade (h : φ.Canonical m q) : φ.Binade (m * 2 ^ q) q := by
  refine ⟨h.low, ?_, h.full.imp_right fun hm => ?_⟩
  · rw [add_assoc, add_comm, zpow_two_add]
    gcongr
    exact_mod_cast h.fits
  · rw [add_comm, zpow_two_add]
    gcongr
    exact_mod_cast hm

/-- `round` of a positive number counts its nearest significand in the unit of its binade. -/
theorem round_eq {num den : Nat} (hnum : 0 < num) (hden : 0 < den) (neg : Bool) (exp : Int) :
    ∃ q m, φ.Binade (num / den * 2 ^ exp) q ∧ NearestEven (num / den * 2 ^ exp / 2 ^ q) m ∧
      φ.round neg num den exp = φ.signBit neg + min (φ.magBits m q) (φ.maxField * 2 ^ φ.fracBits) := by
  have hnear := nearestEven_roundHalfEven (num * 2 ^ (exp - φ.quantum num den exp).toNat)
    (Nat.mul_pos hden (Nat.two_pow_pos (-(exp - φ.quantum num den exp)).toNat))
  rw [scaled_div, zpow_sub₀ two_ne_zero, ← mul_div_assoc] at hnear
  rw [neg_sub] at hnear
  refine ⟨_, _, binade_quantum hnum hden exp, hnear, ?_⟩
  rw [round, if_neg hnum.ne']
  rfl

end FpFormat

end Sys2Proof.Machine
end

section
/-! PROOFS. Rounding is to nearest, ties to even (44_floating_point.md R251). -/

namespace Sys2Proof.Machine

namespace FpFormat

variable {φ : FpFormat} {x c : ℚ} {q : Int} {m n : Nat} {neg : Bool}

/-! ### The significand -/

theorem Binade.scaled_lt (h : φ.Binade x q) : x / 2 ^ q < (2 ^ (φ.fracBits + 1) : Nat) := by
  rw [div_lt_iff₀ (zpow_two_pos q), two_pow_mul_zpow, Nat.cast_succ, ← add_assoc]
  exact h.below

theorem Binade.scaled_ge (h : φ.Binade x q) : q = φ.minExp ∨ ((2 ^ φ.fracBits : Nat) : ℚ) ≤ x / 2 ^ q := by
  refine h.full.imp_right fun hx => ?_
  rwa [le_div_iff₀ (zpow_two_pos q), two_pow_mul_zpow]

/-- x rounds to m * 2^q. -/
structure Nearest (φ : FpFormat) (x : ℚ) (m : Nat) (q : Int) : Prop where
  binade : φ.Binade x q
  near : NearestEven (x / 2 ^ q) m

/-- c is a multiple of the unit 2^q, or below x where x is above the subnormals. -/
def OnGrid (φ : FpFormat) (x : ℚ) (q : Int) (c : ℚ) : Prop :=
  (∃ k : Int, c = k * 2 ^ q) ∨ (2 ^ (q + φ.fracBits) ≤ x ∧ |c| < 2 ^ (q + φ.fracBits))

theorem OnGrid.signed (h : φ.OnGrid x q c) (neg : Bool) : φ.OnGrid x q (signRat neg * c) := by
  obtain ⟨k, rfl⟩ | ⟨hx, hc⟩ := h
  · refine Or.inl ⟨(if neg then -1 else 1) * k, ?_⟩
    rw [signRat]
    push_cast
    ring
  · refine Or.inr ⟨hx, ?_⟩
    rwa [abs_mul, abs_signRat, one_mul]

section Significand

variable (h : φ.Nearest x m q)

include h

theorem Nearest.le_carry : m ≤ 2 ^ (φ.fracBits + 1) := h.near.le_of_le h.binade.scaled_lt.le

theorem Nearest.full : q = φ.minExp ∨ 2 ^ φ.fracBits ≤ m := h.binade.scaled_ge.imp_right h.near.ge_of_ge

/-- A finite rounded pattern holds its significand, carried to the next exponent where it is one too large. -/
theorem Nearest.decode (neg : Bool) (hlt : φ.magBits m q < φ.maxField * 2 ^ φ.fracBits) :
    ∃ m' e', φ.decode (φ.signBit neg + φ.magBits m q) = .finite neg m' e' ∧ (m' : ℚ) * 2 ^ e' = m * 2 ^ q := by
  obtain rfl | hfits := h.le_carry.eq_or_lt
  · rw [magBits_carry h.binade.low] at hlt ⊢
    have hlow := h.binade.low
    have hcanon : φ.Canonical (2 ^ φ.fracBits) (q + 1) :=
      ⟨by omega, Nat.pow_lt_pow_right one_lt_two (Nat.lt_succ_self _), .inr le_rfl⟩
    refine ⟨_, _, decode_magBits hcanon hlt, ?_⟩
    rw [zpow_add_one₀ two_ne_zero, pow_succ]
    push_cast
    ring
  · exact ⟨_, _, decode_magBits ⟨h.binade.low, hfits, h.full⟩ hlt, rfl⟩

/-! ### No number of the format is nearer -/

/-- The numbers of a format are multiples of the unit of x's binade, or below this binade. -/
theorem Nearest.onGrid {bits : Nat} (hfin : (φ.decode bits).isFinite = true) :
    φ.OnGrid x q (φ.decode bits).toRat := by
  obtain ⟨n, mc, ec, hdec⟩ := FpValue.finite_of_isFinite hfin
  have hc := holds_of_decode hdec
  rw [hdec, FpValue.toRat_finite]
  obtain hge | hlt := le_or_gt q ec
  · refine Or.inl ⟨(if n then -1 else 1) * (mc * 2 ^ (ec - q).toNat : Nat), ?_⟩
    rw [zpow_two_toNat hge, signRat]
    push_cast
    ring
  · have hlow := hc.low
    refine Or.inr ⟨h.binade.full.resolve_left (by omega), ?_⟩
    rw [abs_mul, abs_signRat, one_mul, abs_of_nonneg (by positivity)]
    calc (mc : ℚ) * 2 ^ ec < (2 ^ (φ.fracBits + 1) : Nat) * 2 ^ ec := by
          gcongr
          exact_mod_cast hc.fits
      _ = 2 ^ (ec + (φ.fracBits + 1 : Nat) : Int) := two_pow_mul_zpow ..
      _ ≤ 2 ^ (q + φ.fracBits) := zpow_two_le (by omega)

/-- A multiple of the unit, or a number below the binade, is no nearer to x, and as near only where m is even. -/
theorem Nearest.dist_le (hc : φ.OnGrid x q c) :
    |x - m * 2 ^ q| ≤ |x - c| ∧ (c ≠ m * 2 ^ q → |x - c| = |x - m * 2 ^ q| → m % 2 = 0) := by
  have hpos := zpow_two_pos q
  have hscale : ∀ k : ℚ, |x - k * 2 ^ q| = |x / 2 ^ q - k| * 2 ^ q := by
    intro k
    rw [← abs_of_pos hpos, ← abs_mul, abs_of_pos hpos, sub_mul, div_mul_cancel₀ _ hpos.ne']
  have hgrid : ∀ k : Int, |x - m * 2 ^ q| ≤ |x - k * 2 ^ q| := by
    intro k
    rw [hscale, hscale]
    exact mul_le_mul_of_nonneg_right (h.near.dist_le k) hpos.le
  obtain ⟨k, rfl⟩ | ⟨hx, hc⟩ := hc
  · refine ⟨hgrid k, fun hne htie => h.near.even_of_tie (k := k) ?_ ?_⟩
    · rintro rfl
      exact hne rfl
    · rw [hscale, hscale] at htie
      exact mul_right_cancel₀ hpos.ne' htie
  · have hedge := hgrid (2 ^ φ.fracBits : Nat)
    rw [Int.cast_natCast, two_pow_mul_zpow, abs_of_nonneg (sub_nonneg.mpr hx)] at hedge
    have hfar : |x - m * 2 ^ q| < |x - c| := by
      linarith [le_abs_self (x - c), le_abs_self c]
    exact ⟨hfar.le, fun _ htie => absurd htie hfar.ne'⟩

end Significand

/-! ### Overflow -/

/-- The exponent of the largest finite numbers. -/
def topExp (φ : FpFormat) : Int := φ.minExp + (φ.maxField - 2 : Nat)

theorem Wide.two_le_maxField (hw : φ.Wide) : 2 ≤ φ.maxField := by
  have : 2 ^ 2 ≤ 2 ^ φ.expBits := Nat.pow_le_pow_right two_pos hw.exp
  unfold maxField
  omega

theorem Wide.overflowBound_eq (hw : φ.Wide) :
    φ.overflowBound = ((2 ^ (φ.fracBits + 1) : Nat) - 1 / 2) * 2 ^ φ.topExp := by
  have htop : φ.topExp = ((2 ^ (φ.expBits - 1) - 1 : Nat) : Int) - φ.fracBits := by
    obtain ⟨k, hk⟩ := Nat.exists_eq_add_of_le hw.exp
    have hmax := hw.two_le_maxField
    have hpow : 2 ^ φ.expBits = 2 * 2 ^ (φ.expBits - 1) := by
      rw [← Nat.pow_succ']
      congr 1
      omega
    have hcast : (2 : Int) ^ (φ.expBits - 1) = (2 ^ (φ.expBits - 1) : Nat) := by push_cast; rfl
    unfold topExp minExp
    unfold maxField at hmax ⊢
    rw [hcast]
    omega
  rw [htop, overflowBound, zpow_sub₀ two_ne_zero, zpow_natCast, zpow_natCast]
  push_cast
  field_simp
  ring

theorem magBits_add (m j : Nat) : φ.magBits m (φ.minExp + j) = j * 2 ^ φ.fracBits + m := by
  rw [magBits, add_sub_cancel_left, Int.toNat_natCast]

section Overflow

variable (h : φ.Nearest x m q) (hw : φ.Wide)

include h hw

theorem Nearest.finite_of_lt (hq : q < φ.topExp) :
    φ.magBits m q < φ.maxField * 2 ^ φ.fracBits ∧ x < φ.overflowBound := by
  have hlow := h.binade.low
  obtain ⟨j, rfl⟩ := Int.exists_add_of_le hlow
  have hj : j + 3 ≤ φ.maxField := by
    unfold topExp at hq
    omega
  refine ⟨?_, h.binade.below.trans_le ?_⟩
  · calc φ.magBits m (φ.minExp + j) ≤ j * 2 ^ φ.fracBits + 2 ^ (φ.fracBits + 1) := by
          rw [magBits_add]
          exact Nat.add_le_add_left h.le_carry _
      _ < (j + 3) * 2 ^ φ.fracBits := by
          have : 0 < 2 ^ φ.fracBits := by positivity
          rw [pow_succ, Nat.add_mul]
          omega
      _ ≤ φ.maxField * 2 ^ φ.fracBits := Nat.mul_le_mul_right _ hj
  · calc (2 : ℚ) ^ (φ.minExp + j + φ.fracBits + 1) ≤ 2 ^ (φ.topExp + φ.fracBits) := zpow_two_le (by omega)
      _ = (2 ^ φ.fracBits : Nat) * 2 ^ φ.topExp := (two_pow_mul_zpow ..).symm
      _ ≤ φ.overflowBound := by
          have : (1 : ℚ) ≤ (2 ^ φ.fracBits : Nat) := by exact_mod_cast Nat.one_le_two_pow
          rw [hw.overflowBound_eq, pow_succ]
          gcongr
          push_cast at this ⊢
          linarith

theorem Nearest.infinite_of_gt (hq : φ.topExp < q) :
    φ.maxField * 2 ^ φ.fracBits ≤ φ.magBits m q ∧ φ.overflowBound ≤ x := by
  have hmax := hw.two_le_maxField
  have hne : q ≠ φ.minExp := by
    unfold topExp at hq
    omega
  obtain ⟨j, rfl⟩ := Int.exists_add_of_le h.binade.low
  have hj : φ.maxField ≤ j + 1 := by
    unfold topExp at hq
    omega
  constructor
  · calc φ.maxField * 2 ^ φ.fracBits ≤ (j + 1) * 2 ^ φ.fracBits := Nat.mul_le_mul_right _ hj
      _ ≤ φ.magBits m (φ.minExp + j) := by
        rw [magBits_add, Nat.succ_mul]
        exact Nat.add_le_add_left (h.full.resolve_left hne) _
  · calc φ.overflowBound ≤ (2 ^ (φ.fracBits + 1) : Nat) * 2 ^ φ.topExp := by
          rw [hw.overflowBound_eq]
          gcongr
          norm_num
      _ = 2 ^ (φ.topExp + (φ.fracBits + 1 : Nat)) := two_pow_mul_zpow ..
      _ ≤ 2 ^ (φ.minExp + j + φ.fracBits) := zpow_two_le (by omega)
      _ ≤ x := h.binade.full.resolve_left hne

theorem Nearest.finite_iff_of_eq (hq : q = φ.topExp) :
    φ.magBits m q < φ.maxField * 2 ^ φ.fracBits ↔ x < φ.overflowBound := by
  subst hq
  obtain ⟨top, hmax⟩ := Nat.exists_eq_add_of_le' hw.two_le_maxField
  have hmag : φ.magBits m φ.topExp < φ.maxField * 2 ^ φ.fracBits ↔ m < 2 ^ (φ.fracBits + 1) := by
    rw [topExp, magBits_add, hmax, Nat.add_sub_cancel, Nat.add_mul, pow_succ]
    omega
  rw [hmag, hw.overflowBound_eq, ← div_lt_iff₀ (zpow_two_pos _)]
  refine ⟨fun hm => not_le.mp fun hx => ?_, h.near.lt_of_lt⟩
  have heven : 2 ^ (φ.fracBits + 1) % 2 = 0 := by simp [pow_succ]
  exact absurd (h.near.ge_of_half_le heven hx) (not_le.mpr hm)

/-- A rounded pattern is finite exactly below the overflow bound. -/
theorem Nearest.finite_iff : φ.magBits m q < φ.maxField * 2 ^ φ.fracBits ↔ x < φ.overflowBound := by
  obtain hlt | heq | hgt := lt_trichotomy q φ.topExp
  · obtain ⟨hmag, hx⟩ := h.finite_of_lt hw hlt
    exact iff_of_true hmag hx
  · exact h.finite_iff_of_eq hw heq
  · obtain ⟨hmag, hx⟩ := h.infinite_of_gt hw hgt
    exact iff_of_false hmag.not_gt hx.not_gt

end Overflow

/-! ### Nearest even -/

theorem two_pow_le_overflowBound {n : Nat} (h : n ≤ 2 ^ (φ.expBits - 1) - 1) : (2 : ℚ) ^ n ≤ φ.overflowBound := by
  have hhalf : 1 / (2 : ℚ) ^ (φ.fracBits + 1) ≤ 1 := div_le_one_of_le₀ (one_le_pow₀ one_le_two) (by positivity)
  calc (2 : ℚ) ^ n ≤ 2 ^ (2 ^ (φ.expBits - 1) - 1) := pow_le_pow_right₀ one_le_two h
    _ ≤ φ.overflowBound := le_mul_of_one_le_right (by positivity) (by linarith)

theorem overflowBound_pos : 0 < φ.overflowBound :=
  one_pos.trans_le (pow_zero (2 : ℚ) ▸ two_pow_le_overflowBound (Nat.zero_le _))

theorem overflowBound_le : φ.overflowBound ≤ 2 ^ 2 ^ (φ.expBits - 1) := by
  have hpos : 0 < 1 / (2 : ℚ) ^ (φ.fracBits + 1) := by positivity
  calc φ.overflowBound ≤ 2 ^ (2 ^ (φ.expBits - 1) - 1) * 2 := mul_le_mul_of_nonneg_left (by linarith) (by positivity)
    _ = 2 ^ 2 ^ (φ.expBits - 1) := by rw [← pow_succ, Nat.sub_add_cancel Nat.one_le_two_pow]

/-- The magnitude of a rounded pattern leaves the sign bit alone. -/
theorem clamp_lt (n : Nat) : min n (φ.maxField * 2 ^ φ.fracBits) < 2 ^ (φ.expBits + φ.fracBits) :=
  (min_le_right ..).trans_lt maxField_mul_lt

theorem even_signBit_add_magBits (hw : φ.Wide) (hm : m % 2 = 0) : (φ.signBit neg + φ.magBits m q) % 2 = 0 := by
  have hsign : 2 ∣ φ.signBit neg := (dvd_pow_self 2 (by have := hw.frac; omega)).trans two_pow_dvd_signBit
  have hfrac : 2 ∣ (q - φ.minExp).toNat * 2 ^ φ.fracBits := (dvd_pow_self 2 (by have := hw.frac; omega)).mul_left _
  exact Nat.mod_eq_zero_of_dvd (dvd_add hsign (dvd_add hfrac (Nat.dvd_of_mod_eq_zero hm)))

theorem abs_signRat_mul_sub (neg : Bool) (x c : ℚ) : |signRat neg * x - c| = |x - signRat neg * c| := by
  rw [← one_mul |x - _|, ← abs_signRat neg, ← abs_mul, mul_sub, ← mul_assoc, signRat_mul_self, one_mul]

section Rounded

variable (h : φ.Nearest x m q) (neg : Bool)

include h

theorem Nearest.decode_clamped (hw : φ.Wide) (hx : x < φ.overflowBound) :
    ∃ m' e', φ.decode (φ.signBit neg + min (φ.magBits m q) (φ.maxField * 2 ^ φ.fracBits)) = .finite neg m' e' ∧
      (m' : ℚ) * 2 ^ e' = m * 2 ^ q := by
  have hmag := (h.finite_iff hw).mpr hx
  rw [min_eq_left hmag.le]
  exact h.decode neg hmag

/-- The distances of the numbers of the format from x with a sign. -/
theorem Nearest.signed_dist_le {bits : Nat} (hfin : (φ.decode bits).isFinite = true) :
    |signRat neg * x - signRat neg * (m * 2 ^ q)| ≤ |signRat neg * x - (φ.decode bits).toRat| ∧
      ((φ.decode bits).toRat ≠ signRat neg * (m * 2 ^ q) → |signRat neg * x - (φ.decode bits).toRat| =
        |signRat neg * x - signRat neg * (m * 2 ^ q)| → m % 2 = 0) := by
  have hturn : ∀ c : ℚ, signRat neg * (signRat neg * c) = c := by
    intro c
    rw [← mul_assoc, signRat_mul_self, one_mul]
  rw [abs_signRat_mul_sub, abs_signRat_mul_sub, hturn]
  obtain ⟨hle, heven⟩ := h.dist_le ((h.onGrid hfin).signed neg)
  exact ⟨hle, fun hne => heven fun heq => hne (by rw [← heq, hturn])⟩

theorem Nearest.roundsTo (hw : φ.Wide) (hx : 0 < x) :
    φ.RoundsTo (signRat neg * x) (φ.signBit neg + min (φ.magBits m q) (φ.maxField * 2 ^ φ.fracBits)) := by
  have habs : |signRat neg * x| = x := by rw [abs_mul, abs_signRat, one_mul, abs_of_pos hx]
  have hsign : decide (signRat neg * x < 0) = neg := by cases neg <;> simp [hx, hx.le]
  constructor
  case overflow =>
    intro hbig
    rw [habs] at hbig
    rw [hsign, min_eq_right (not_lt.mp ((h.finite_iff hw).not.mpr (not_lt.mpr hbig)))]
    rfl
  case sign =>
    intro _
    rw [hsign]
    exact isNegative_signBit_add (clamp_lt _)
  all_goals
    intro hlt
    rw [habs] at hlt
    obtain ⟨m', e', hdec, hval⟩ := h.decode_clamped neg hw hlt
    rw [hdec]
  case finite => rfl
  case nearest =>
    intro c hc
    rw [FpValue.toRat_finite, hval]
    exact (h.signed_dist_le neg hc).1
  case even =>
    intro c hc hne htie
    rw [FpValue.toRat_finite, hval] at hne htie
    rw [min_eq_left ((h.finite_iff hw).mpr hlt).le]
    exact even_signBit_add_magBits hw ((h.signed_dist_le neg hc).2 hne htie)

end Rounded

/-- A zero of either sign is the number 0. -/
theorem decode_signBit (hw : φ.Wide) : φ.decode (φ.signBit neg) = .finite neg 0 φ.minExp := by
  have hmax := hw.two_le_maxField
  have hmag : φ.magBits 0 φ.minExp = 0 := by simp [magBits]
  have hdec := decode_magBits (φ := φ) (neg := neg) (m := 0) ⟨le_rfl, by positivity, .inl rfl⟩
    (by rw [hmag]; positivity)
  rwa [hmag] at hdec

/-- Zero rounds to a zero of either sign. -/
theorem Wide.roundsTo_signBit (hw : φ.Wide) (neg : Bool) : φ.RoundsTo 0 (φ.signBit neg) := by
  have hval : (φ.decode (φ.signBit neg)).toRat = 0 := by
    rw [decode_signBit hw, FpValue.toRat_finite]
    simp
  constructor
  case overflow =>
    intro h
    rw [abs_zero] at h
    exact absurd h (not_le.mpr overflowBound_pos)
  case finite =>
    intro _
    rw [decode_signBit hw]
    rfl
  case nearest =>
    intro _ c _
    rw [hval, sub_zero, abs_zero]
    positivity
  case even =>
    intro _ c _ hne htie
    rw [hval, sub_zero, abs_zero, zero_sub, abs_neg, abs_eq_zero] at htie
    exact absurd (htie.trans hval.symm) hne
  case sign => exact fun h => absurd rfl h

/-- `round` is round-to-nearest, ties to even. -/
theorem Wide.roundsTo_round (hw : φ.Wide) (neg : Bool) (num : Nat) {den : Nat} (hden : 0 < den) (exp : Int) :
    φ.RoundsTo (signRat neg * (num / den * 2 ^ exp)) (φ.round neg num den exp) := by
  obtain rfl | hnum := num.eq_zero_or_pos
  · have hzero : signRat neg * ((0 : Nat) / den * 2 ^ exp) = 0 := by simp
    rw [hzero, round, if_pos rfl]
    exact hw.roundsTo_signBit neg
  · obtain ⟨q, m, hbinade, hnear, hround⟩ := round_eq hnum hden neg exp
    rw [hround]
    exact Nearest.roundsTo ⟨hbinade, hnear⟩ neg hw (by positivity)

end FpFormat

/-- Settles O42: both formats are wide. -/
theorem roundingIsNearestEven : Obligations.rounding_is_nearest_even := by
  intro φ hφ neg num den exp _ hden
  have hw : φ.Wide := by
    obtain rfl | rfl := hφ
    · exact FpFormat.wide_binary32
    · exact FpFormat.wide_binary64
  rw [mul_assoc]
  exact hw.roundsTo_round neg num hden exp

end Sys2Proof.Machine
end

section
/-! PROOFS. Floating-point arithmetic (44_floating_point.md R251, R252): the exact result rounded once, the special
results, and that the order of the operands of a sum or a product does not matter. -/

namespace Sys2Proof.Machine

/-! ### Values -/

theorem cast_signedMag (neg : Bool) (m : Nat) : (signedMag neg m : ℚ) = signRat neg * m := by
  cases neg <;> simp [signedMag]

/-- A finite value counted in a unit no larger than its own. -/
theorem FpValue.toRat_scaled (neg : Bool) (m : Nat) {e e₀ : Int} (h : e₀ ≤ e) :
    (FpValue.finite neg m e).toRat = signedMag neg (m * 2 ^ (e - e₀).toNat) * 2 ^ e₀ := by
  rw [FpValue.toRat_finite, cast_signedMag, zpow_two_toNat h]
  push_cast
  ring

theorem FpValue.toRat_eq_zero_iff (n : Bool) (m : Nat) (e : Int) : (FpValue.finite n m e).toRat = 0 ↔ m = 0 := by
  rw [FpValue.toRat_finite, mul_eq_zero_iff_left (signRat_ne_zero n), mul_eq_zero_iff_right (zpow_two_pos e).ne',
    Nat.cast_eq_zero]

@[simp] theorem FpValue.isFinite_negate (v : FpValue) : v.negate.isFinite = v.isFinite := by cases v <;> rfl

@[simp] theorem FpValue.toRat_negate (v : FpValue) : v.negate.toRat = -v.toRat := by
  cases v with
  | nan => rfl
  | inf n => rfl
  | finite n m e =>
    rw [FpValue.negate, FpValue.toRat_finite, FpValue.toRat_finite]
    cases n <;> simp

theorem signRat_natAbs (i : Int) : signRat (decide (i < 0)) * i.natAbs = i := by
  obtain h | h := lt_or_ge i 0
  · have : (i.natAbs : Int) = -i := by omega
    rw [decide_eq_true h, signRat_true, ← Int.cast_natCast, this]
    simp
  · have : (i.natAbs : Int) = i := by omega
    rw [decide_eq_false h.not_gt, signRat_false, ← Int.cast_natCast, this, one_mul]

namespace FpFormat

variable {φ : FpFormat} {neg n₁ n₂ : Bool} {m₁ m₂ num den bits : Nat} {e₁ e₂ exp : Int}

/-! ### The sign of a pattern -/

/-- The sign of a value is its pattern's sign bit. -/
theorem sign_of_decode (φ : FpFormat) (bits : Nat) (n : Bool) : (φ.decode bits = .inf n → n = φ.isNegative bits) ∧
    ∀ m e, φ.decode bits = .finite n m e → n = φ.isNegative bits := by
  have hsign : φ.isNegative bits = (bits / 2 ^ (φ.expBits + φ.fracBits) % 2 == 1) := by
    rw [isNegative, Nat.testBit_eq_decide_div_mod_eq]
    exact (beq_eq_decide _ _).symm
  unfold decode
  dsimp only
  rw [hsign]
  split
  · split <;> simp_all
  · split <;> simp +contextual [eq_comm]

theorem round_eq_add (φ : FpFormat) (neg : Bool) (num den : Nat) (exp : Int) :
    ∃ n < 2 ^ (φ.expBits + φ.fracBits), φ.round neg num den exp = φ.signBit neg + n := by
  unfold round
  split
  · exact ⟨0, by positivity, rfl⟩
  · exact ⟨_, clamp_lt _, rfl⟩

theorem round_lt : φ.round neg num den exp < 2 ^ (φ.expBits + φ.fracBits + 1) := by
  obtain ⟨n, hn, hround⟩ := round_eq_add φ neg num den exp
  rw [hround]
  exact (Nat.add_lt_add_left hn _).trans_le signBit_lt

theorem isNegative_round : φ.isNegative (φ.round neg num den exp) = neg := by
  obtain ⟨n, hn, hround⟩ := round_eq_add φ neg num den exp
  rw [hround]
  exact isNegative_signBit_add hn

/-! ### Operations on finite values -/

theorem Wide.roundsTo_round_int (hw : φ.Wide) (i : Int) (exp : Int) :
    φ.RoundsTo (i * 2 ^ exp) (φ.round (decide (i < 0)) i.natAbs 1 exp) := by
  have := hw.roundsTo_round (decide (i < 0)) i.natAbs one_pos exp
  rwa [Nat.cast_one, div_one, ← mul_assoc, signRat_natAbs] at this

/-- The exact sum of two finite values is an integer in the smaller of their units. -/
theorem add_finite (φ : FpFormat) (n₁ n₂ : Bool) (m₁ m₂ : Nat) (e₁ e₂ : Int) : ∃ (i : Int) (e : Int),
    (FpValue.finite n₁ m₁ e₁).toRat + (FpValue.finite n₂ m₂ e₂).toRat = i * 2 ^ e ∧
    φ.add (.finite n₁ m₁ e₁) (.finite n₂ m₂ e₂) =
      some (if i = 0 then φ.signBit (n₁ && n₂) else φ.round (decide (i < 0)) i.natAbs 1 e) := by
  refine ⟨_, min e₁ e₂, ?_, (apply_ite some ..).symm⟩
  rw [FpValue.toRat_scaled n₁ m₁ (min_le_left e₁ e₂), FpValue.toRat_scaled n₂ m₂ (min_le_right e₁ e₂)]
  push_cast
  ring

theorem add_of_sum_zero (h : (FpValue.finite n₁ m₁ e₁).toRat + (FpValue.finite n₂ m₂ e₂).toRat = 0) :
    φ.add (.finite n₁ m₁ e₁) (.finite n₂ m₂ e₂) = some (φ.signBit (n₁ && n₂)) := by
  obtain ⟨i, e, hsum, hadd⟩ := add_finite φ n₁ n₂ m₁ m₂ e₁ e₂
  have hi : i = 0 := by
    have := (mul_eq_zero.mp (hsum.symm.trans h)).resolve_right (zpow_two_pos e).ne'
    exact_mod_cast this
  rw [hadd, if_pos hi]

theorem Wide.add_roundsTo (hw : φ.Wide) (n₁ n₂ : Bool) (m₁ m₂ : Nat) (e₁ e₂ : Int) :
    ∃ bits < 2 ^ (φ.expBits + φ.fracBits + 1), φ.add (.finite n₁ m₁ e₁) (.finite n₂ m₂ e₂) = some bits ∧
      φ.RoundsTo ((FpValue.finite n₁ m₁ e₁).toRat + (FpValue.finite n₂ m₂ e₂).toRat) bits := by
  obtain ⟨i, e, hsum, hadd⟩ := add_finite φ n₁ n₂ m₁ m₂ e₁ e₂
  refine ⟨_, ?_, hadd, ?_⟩
  · split
    · exact (Nat.lt_add_of_pos_right (by positivity)).trans_le signBit_lt
    · exact round_lt
  · rw [hsum]
    split
    case isTrue hi =>
      rw [hi, Int.cast_zero, zero_mul]
      exact hw.roundsTo_signBit _
    case isFalse => exact hw.roundsTo_round_int i e

theorem Wide.mul_roundsTo (hw : φ.Wide) (n₁ n₂ : Bool) (m₁ m₂ : Nat) (e₁ e₂ : Int) :
    φ.RoundsTo ((FpValue.finite n₁ m₁ e₁).toRat * (FpValue.finite n₂ m₂ e₂).toRat)
      (φ.round (n₁ ^^ n₂) (m₁ * m₂) 1 (e₁ + e₂)) := by
  have := hw.roundsTo_round (n₁ ^^ n₂) (m₁ * m₂) one_pos (e₁ + e₂)
  convert this using 1
  rw [FpValue.toRat_finite, FpValue.toRat_finite, signRat_xor, zpow_two_add]
  push_cast
  ring

theorem Wide.div_roundsTo (hw : φ.Wide) (n₁ n₂ : Bool) (m₁ : Nat) (hm : m₂ ≠ 0) (e₁ e₂ : Int) :
    φ.RoundsTo ((FpValue.finite n₁ m₁ e₁).toRat / (FpValue.finite n₂ m₂ e₂).toRat)
      (φ.round (n₁ ^^ n₂) m₁ m₂ (e₁ - e₂)) := by
  have := hw.roundsTo_round (n₁ ^^ n₂) m₁ (Nat.pos_of_ne_zero hm) (e₁ - e₂)
  convert this using 1
  have hsign : signRat n₁ / signRat n₂ = signRat (n₁ ^^ n₂) := by
    rw [div_eq_iff (signRat_ne_zero _), signRat_xor, mul_assoc, signRat_mul_self, mul_one]
  rw [FpValue.toRat_finite, FpValue.toRat_finite, mul_div_mul_comm, hsign, mul_div_mul_comm, zpow_sub₀ two_ne_zero]

/-! ### Operations on patterns -/

section Patterns

variable {k : Nat} (hk : φ.expBits + φ.fracBits + 1 = k) (a b : BitVec k)

include hk

theorem isNegative_toNat : φ.isNegative a.toNat = a.msb := by
  subst hk
  rw [BitVec.msb_eq_getLsbD_last]
  rfl

theorem toNat_ofNat_of_lt (h : bits < 2 ^ (φ.expBits + φ.fracBits + 1)) : (BitVec.ofNat k bits).toNat = bits := by
  subst hk
  exact Nat.mod_eq_of_lt h

theorem toNat_ofNat_round (neg : Bool) (num den : Nat) (exp : Int) :
    (BitVec.ofNat k (φ.round neg num den exp)).toNat = φ.round neg num den exp := toNat_ofNat_of_lt hk round_lt

variable {a b}

theorem msb_of_decode {n : Bool} {m : Nat} {e : Int} (h : φ.decode a.toNat = .finite n m e) : n = a.msb :=
  ((sign_of_decode φ a.toNat n).2 m e h).trans (isNegative_toNat hk a)

theorem msb_ofNat_round : (BitVec.ofNat k (φ.round neg num den exp)).msb = neg := by
  rw [← isNegative_toNat hk, toNat_ofNat_round hk, isNegative_round]

theorem add_finite_patterns (hw : φ.Wide) (n₁ n₂ : Bool) (m₁ m₂ : Nat) (e₁ e₂ : Int) : ∃ v,
    (φ.add (.finite n₁ m₁ e₁) (.finite n₂ m₂ e₂)).map (BitVec.ofNat k) = some v ∧
    φ.RoundsTo ((FpValue.finite n₁ m₁ e₁).toRat + (FpValue.finite n₂ m₂ e₂).toRat) v.toNat ∧
    ((FpValue.finite n₁ m₁ e₁).toRat + (FpValue.finite n₂ m₂ e₂).toRat = 0 →
      v.toNat = φ.signBit (n₁ && n₂)) := by
  obtain ⟨bits, hlt, hadd, hround⟩ := hw.add_roundsTo n₁ n₂ m₁ m₂ e₁ e₂
  have hbits : (BitVec.ofNat k bits).toNat = bits := toNat_ofNat_of_lt hk hlt
  refine ⟨_, congrArg _ hadd, by rwa [hbits], fun hzero => ?_⟩
  rw [hbits]
  exact Option.some_injective _ (hadd.symm.trans (add_of_sum_zero hzero))

variable (hw : φ.Wide) (ha : (φ.decode a.toNat).isFinite = true) (hb : (φ.decode b.toNat).isFinite = true)

include hw ha hb

theorem add_patterns : ∃ v, (φ.add (φ.decode a.toNat) (φ.decode b.toNat)).map (BitVec.ofNat k) = some v ∧
    φ.RoundsTo ((φ.decode a.toNat).toRat + (φ.decode b.toNat).toRat) v.toNat ∧
    ((φ.decode a.toNat).toRat + (φ.decode b.toNat).toRat = 0 → v.toNat = φ.signBit (a.msb && b.msb)) := by
  obtain ⟨n₁, m₁, e₁, hda⟩ := FpValue.finite_of_isFinite ha
  obtain ⟨n₂, m₂, e₂, hdb⟩ := FpValue.finite_of_isFinite hb
  rw [← msb_of_decode hk hda, ← msb_of_decode hk hdb, hda, hdb]
  exact add_finite_patterns hk hw ..

theorem sub_patterns : ∃ v, (φ.sub (φ.decode a.toNat) (φ.decode b.toNat)).map (BitVec.ofNat k) = some v ∧
    φ.RoundsTo ((φ.decode a.toNat).toRat - (φ.decode b.toNat).toRat) v.toNat ∧
    ((φ.decode a.toNat).toRat - (φ.decode b.toNat).toRat = 0 → v.toNat = φ.signBit (a.msb && !b.msb)) := by
  obtain ⟨n₁, m₁, e₁, hda⟩ := FpValue.finite_of_isFinite ha
  obtain ⟨n₂, m₂, e₂, hdb⟩ := FpValue.finite_of_isFinite hb
  rw [← msb_of_decode hk hda, ← msb_of_decode hk hdb, sub_eq_add_neg, ← FpValue.toRat_negate, hda, hdb]
  exact add_finite_patterns hk hw n₁ (!n₂) ..

theorem mul_patterns : ∃ v, (φ.mul (φ.decode a.toNat) (φ.decode b.toNat)).map (BitVec.ofNat k) = some v ∧
    φ.RoundsTo ((φ.decode a.toNat).toRat * (φ.decode b.toNat).toRat) v.toNat ∧ v.msb = (a.msb ^^ b.msb) := by
  obtain ⟨n₁, m₁, e₁, hda⟩ := FpValue.finite_of_isFinite ha
  obtain ⟨n₂, m₂, e₂, hdb⟩ := FpValue.finite_of_isFinite hb
  rw [← msb_of_decode hk hda, ← msb_of_decode hk hdb, hda, hdb]
  refine ⟨_, rfl, ?_, msb_ofNat_round hk⟩
  rw [toNat_ofNat_round hk]
  exact hw.mul_roundsTo n₁ n₂ m₁ m₂ e₁ e₂

theorem div_patterns (hne : (φ.decode b.toNat).toRat ≠ 0) :
    ∃ v, (φ.div (φ.decode a.toNat) (φ.decode b.toNat)).map (BitVec.ofNat k) = some v ∧
    φ.RoundsTo ((φ.decode a.toNat).toRat / (φ.decode b.toNat).toRat) v.toNat ∧ v.msb = (a.msb ^^ b.msb) := by
  obtain ⟨n₁, m₁, e₁, hda⟩ := FpValue.finite_of_isFinite ha
  obtain ⟨n₂, m₂, e₂, hdb⟩ := FpValue.finite_of_isFinite hb
  have hm : m₂ ≠ 0 := by rwa [hdb, Ne, FpValue.toRat_eq_zero_iff] at hne
  rw [← msb_of_decode hk hda, ← msb_of_decode hk hdb, hda, hdb, div, if_neg hm]
  refine ⟨_, rfl, ?_, msb_ofNat_round hk⟩
  rw [toNat_ofNat_round hk]
  exact hw.div_roundsTo n₁ n₂ m₁ hm e₁ e₂

end Patterns

end FpFormat

/-- Settles O43: each operation rounds its exact result once, in a format and width that fit. -/
theorem arithmeticIsCorrectlyRounded : Obligations.arithmetic_is_correctly_rounded := by
  have hs := FpFormat.wide_binary32
  have hd := FpFormat.wide_binary64
  exact ⟨fun a b ha hb => ⟨FpFormat.add_patterns rfl hs ha hb, FpFormat.sub_patterns rfl hs ha hb,
      FpFormat.mul_patterns rfl hs ha hb, FpFormat.div_patterns rfl hs ha hb⟩,
    fun a b ha hb => ⟨FpFormat.add_patterns rfl hd ha hb, FpFormat.sub_patterns rfl hd ha hb,
      FpFormat.mul_patterns rfl hd ha hb, FpFormat.div_patterns rfl hd ha hb⟩⟩

end Sys2Proof.Machine
end

section
/-! PROOFS. The special results of floating-point arithmetic (44_floating_point.md R251, R252), and that the order of
the operands of a sum or a product does not matter. -/

namespace Sys2Proof.Machine

namespace FpFormat

variable (φ : FpFormat)

/-! ### NaN operands -/

section Nan

variable (v : FpValue)

@[simp] theorem add_nan_left : φ.add .nan v = none := rfl
@[simp] theorem mul_nan_left : φ.mul .nan v = none := rfl
@[simp] theorem div_nan_left : φ.div .nan v = none := rfl
@[simp] theorem sub_nan_left : φ.sub .nan v = none := rfl
@[simp] theorem add_nan_right : φ.add v .nan = none := by cases v <;> rfl
@[simp] theorem mul_nan_right : φ.mul v .nan = none := by cases v <;> rfl
@[simp] theorem div_nan_right : φ.div v .nan = none := by cases v <;> rfl
@[simp] theorem sub_nan_right : φ.sub v .nan = none := φ.add_nan_right v

end Nan

/-! ### Infinite operands and zeros -/

section Values

variable (n m : Bool) (x : Nat) (e f : Int)

theorem add_inf_inf : φ.add (.inf n) (.inf m) = if n = m then some (φ.infBits n) else none := rfl

theorem sub_inf_inf : φ.sub (.inf n) (.inf m) = if n = m then none else some (φ.infBits n) := by
  cases n <;> cases m <;> rfl

theorem mul_zero_left : φ.mul (.finite n 0 e) (.finite m x f) = some (φ.signBit (n ^^ m)) := by
  rw [mul, Nat.zero_mul, round, if_pos rfl]

theorem div_zero_left {x : Nat} (h : x ≠ 0) : φ.div (.finite n 0 e) (.finite m x f) = some (φ.signBit (n ^^ m)) := by
  rw [div, if_neg h, round, if_pos rfl]

theorem div_zero_right : φ.div (.finite n x e) (.finite m 0 f) = if x = 0 then none else some (φ.infBits (n ^^ m)) :=
  rfl

theorem sub_of_difference_zero {n m : Bool} {k l : Nat} {e f : Int}
    (h : (FpValue.finite n k e).toRat - (FpValue.finite m l f).toRat = 0) :
    φ.sub (.finite n k e) (.finite m l f) = some (φ.signBit (n && !m)) := by
  rw [sub_eq_add_neg, ← FpValue.toRat_negate] at h
  exact add_of_sum_zero h

end Values

/-- The operations on patterns that are a format's operations on the values have the special results of R251. -/
theorem specialResults {k : Nat} (hk : φ.expBits + φ.fracBits + 1 = k) : SpecialResults φ
    (fun a : BitVec k => φ.decode a.toNat)
    (fun a b => (φ.add (φ.decode a.toNat) (φ.decode b.toNat)).map (BitVec.ofNat k))
    (fun a b => (φ.sub (φ.decode a.toNat) (φ.decode b.toNat)).map (BitVec.ofNat k))
    (fun a b => (φ.mul (φ.decode a.toNat) (φ.decode b.toNat)).map (BitVec.ofNat k))
    (fun a b => (φ.div (φ.decode a.toNat) (φ.decode b.toNat)).map (BitVec.ofNat k)) where
  sign a n := by
    rw [← isNegative_toNat hk]
    exact sign_of_decode φ a.toNat n
  nan a b h := by
    obtain ha | hb := h
    · simp [ha]
    · simp [hb]
  infInf a b n m ha hb := by
    simp only [ha, hb, add_inf_inf, sub_inf_inf]
    exact ⟨by split <;> rfl, by split <;> rfl, rfl, rfl⟩
  infFinite a b n m x e ha hb := by
    simp only [ha, hb]
    exact ⟨rfl, rfl, by rw [mul]; split <;> rfl, rfl⟩
  finiteInf a b n m x e ha hb := by
    simp only [ha, hb]
    exact ⟨rfl, rfl, by rw [mul]; split <;> rfl, rfl⟩
  zeroDivisor a b n m x e f ha hb := by
    simp only [ha, hb, div_zero_right]
    split <;> rfl

/-! ### The order of the operands -/

protected theorem mul_comm (v w : FpValue) : φ.mul v w = φ.mul w v := by
  cases v with
  | nan => simp
  | inf a =>
    cases w with
    | nan => simp
    | inf b => rw [mul, mul, Bool.xor_comm]
    | finite b m e => rw [mul, mul, Bool.xor_comm]
  | finite a m e =>
    cases w with
    | nan => simp
    | inf b => rw [mul, mul, Bool.xor_comm]
    | finite b m' e' => rw [mul, mul, Bool.xor_comm, Nat.mul_comm, Int.add_comm]

protected theorem add_comm (v w : FpValue) : φ.add v w = φ.add w v := by
  cases v with
  | nan => simp
  | inf a =>
    cases w with
    | nan => simp
    | inf b => cases a <;> cases b <;> rfl
    | finite b m e => rfl
  | finite a m e =>
    cases w with
    | nan => simp
    | inf b => rfl
    | finite b m' e' => rw [add, add, Bool.and_comm, min_comm e' e, Int.add_comm]

end FpFormat

/-- Settles O44: both records are a format's operations on values; the special results of these are cases of their
definitions, but for the zero sum and difference. -/
theorem specialOperands : Obligations.special_operands := by
  refine ⟨binary32.specialResults rfl, binary64.specialResults rfl, fun φ _ => ⟨?nan, ?infInf, ?infMul, ?invalid,
    ?zeroDivisor, ?zeroProduct, ?infFinite, ?zeroSum⟩⟩
  case nan => simp
  case infInf =>
    intro n
    exact ⟨by cases n <;> rfl, by rw [φ.sub_inf_inf, if_pos rfl], if_pos rfl, by cases n <;> rfl⟩
  case infMul => exact fun n m => ⟨rfl, rfl⟩
  case invalid => exact fun n m e f => ⟨rfl, rfl, rfl⟩
  case zeroDivisor =>
    intro n m k e f hk
    exact ⟨if_neg hk, φ.div_zero_left n m f e hk, if_neg hk, if_neg hk⟩
  case zeroProduct =>
    intro n m k e f
    rw [φ.mul_comm (.finite m k f), Bool.xor_comm m]
    exact ⟨φ.mul_zero_left n m k e f, φ.mul_zero_left n m k e f⟩
  case infFinite => exact fun n m k e => ⟨rfl, rfl, rfl, rfl, rfl, rfl⟩
  case zeroSum => exact fun n m k l e f => ⟨FpFormat.add_of_sum_zero, φ.sub_of_difference_zero⟩

/-- Settles O45: on patterns each is the format's operation on values. -/
theorem additionAndMultiplicationCommute : Obligations.addition_and_multiplication_commute := by
  refine ⟨fun a b => ⟨?_, ?_⟩, fun a b => ⟨?_, ?_⟩⟩
  · exact congrArg _ (binary32.add_comm ..)
  · exact congrArg _ (binary32.mul_comm ..)
  · exact congrArg _ (binary64.add_comm ..)
  · exact congrArg _ (binary64.mul_comm ..)

end Sys2Proof.Machine
end

section
/-! PROOFS. Conversions (44_floating_point.md R254): between the formats, from an integer, and to an integer. -/

namespace Sys2Proof.Machine

namespace FpFormat

variable {φ : FpFormat} {neg : Bool} {num m bits : Nat} {exp e q : Int} {x : ℚ}

/-! ### Numbers that a format holds exactly -/

theorem nearestEven_natCast (m : Nat) : NearestEven m m := ⟨by simp, by simp⟩

/-- A number a pattern holds is nearest to itself. -/
theorem Canonical.nearest (h : φ.Canonical m e) : φ.Nearest (m * 2 ^ e) m e := by
  refine ⟨h.binade, ?_⟩
  rw [mul_div_cancel_right₀ _ (zpow_two_pos e).ne']
  exact nearestEven_natCast m

theorem Nearest.unique {m' : Nat} {q' : Int} (h : φ.Nearest x m q) (h' : φ.Nearest x m' q') (hx : x = m' * 2 ^ q') :
    m = m' ∧ q = q' := by
  obtain rfl := h.binade.eq h'.binade
  have hnear := h.near
  rw [hx, mul_div_cancel_right₀ _ (zpow_two_pos q).ne'] at hnear
  exact ⟨hnear.eq_of_natCast, rfl⟩

/-- The numbers of a format are below its overflow bound. -/
theorem Holds.lt_overflowBound (h : φ.Holds bits neg m e) (hw : φ.Wide) : (m : ℚ) * 2 ^ e < φ.overflowBound :=
  (h.toCanonical.nearest.finite_iff hw).mp h.below

/-- Rounding a number that a pattern holds gives this pattern back, however the number is written. -/
theorem Holds.round_eq (h : φ.Holds bits neg m e) (hval : (num : ℚ) * 2 ^ exp = m * 2 ^ e) :
    φ.round neg num 1 exp = bits % 2 ^ (φ.expBits + φ.fracBits + 1) := by
  rw [h.pattern]
  obtain rfl | hnum := num.eq_zero_or_pos
  · have hm : m = 0 := by
      have := hval.symm
      rw [Nat.cast_zero, zero_mul, mul_eq_zero_iff_right (zpow_two_pos e).ne'] at this
      exact_mod_cast this
    have hfull : ¬2 ^ φ.fracBits ≤ m := by
      rw [hm]
      exact not_le.mpr (by positivity)
    rw [round, if_pos rfl, magBits, h.full.resolve_right hfull, hm, sub_self]
    simp
  · obtain ⟨q, m', hbinade, hnear, hround⟩ := FpFormat.round_eq (φ := φ) hnum one_pos neg exp
    rw [Nat.cast_one, div_one, hval] at hbinade hnear
    obtain ⟨rfl, rfl⟩ := Nearest.unique ⟨hbinade, hnear⟩ h.toCanonical.nearest rfl
    rw [hround, min_eq_left h.below.le]

/-- A number whose significand fits keeps its value when it is rounded. -/
theorem decode_round_exact (hw : φ.Wide) (hlow : φ.minExp ≤ exp) (hfits : num < 2 ^ (φ.fracBits + 1))
    (hbound : (num : ℚ) * 2 ^ exp < φ.overflowBound) :
    ∃ m e, φ.decode (φ.round neg num 1 exp) = .finite neg m e ∧ (m : ℚ) * 2 ^ e = num * 2 ^ exp := by
  obtain rfl | hnum := num.eq_zero_or_pos
  · rw [round, if_pos rfl, decode_signBit hw]
    exact ⟨_, _, rfl, by simp⟩
  · obtain ⟨q, m, hbinade, hnear, hround⟩ := FpFormat.round_eq (φ := φ) hnum one_pos neg exp
    rw [Nat.cast_one, div_one] at hbinade hnear
    have hq : q ≤ exp := by
      obtain rfl | hfull := hbinade.full
      · exact hlow
      · have hlt : (num : ℚ) * 2 ^ exp < 2 ^ (exp + (φ.fracBits + 1 : Nat)) := by
          rw [← two_pow_mul_zpow]
          gcongr
        have := lt_of_zpow_two_lt (hfull.trans_lt hlt)
        omega
    have hval : (num : ℚ) * 2 ^ exp = (num * 2 ^ (exp - q).toNat : Nat) * 2 ^ q := by
      rw [zpow_two_toNat hq]
      push_cast
      ring
    obtain ⟨m', e', hdec, hm⟩ := Nearest.decode_clamped ⟨hbinade, hnear⟩ neg hw hbound
    rw [hval, mul_div_cancel_right₀ _ (zpow_two_pos q).ne'] at hnear
    rw [hround]
    exact ⟨m', e', hdec, by rw [hm, hval, hnear.eq_of_natCast]⟩

/-! ### Infinities -/

theorem decode_infBits : φ.decode (φ.infBits neg) = .inf neg := by
  rw [infBits, decode_signBit_add maxField_mul_lt, Nat.mul_div_cancel _ (by positivity), if_pos rfl, Nat.mul_mod_left,
    if_pos rfl]

theorem infBits_lt : φ.infBits neg < 2 ^ (φ.expBits + φ.fracBits + 1) :=
  (Nat.add_lt_add_left maxField_mul_lt _).trans_le signBit_lt

theorem infBits_of_decode (h : φ.decode bits = .inf neg) :
    φ.infBits neg = bits % 2 ^ (φ.expBits + φ.fracBits + 1) := by
  rw [mod_eq_fields]
  unfold decode at h
  dsimp only at h
  split at h
  case isTrue hfield =>
    split at h
    case isTrue hfrac =>
      cases h
      rw [hfield, hfrac]
      rfl
    case isFalse => cases h
  case isFalse => split at h <;> cases h

end FpFormat

/-! ### Between the formats -/

theorem overflowBound_binary32_le : binary32.overflowBound ≤ binary64.overflowBound :=
  FpFormat.overflowBound_le.trans (FpFormat.two_pow_le_overflowBound (by decide))

theorem valueD_ofNat {bits : Nat} (h : bits < 2 ^ (binary64.expBits + binary64.fracBits + 1)) :
    valueD (BitVec.ofNat 64 bits) = binary64.decode bits :=
  congrArg binary64.decode (FpFormat.toNat_ofNat_of_lt rfl h)

theorem ofNat_toNat_mod (a : Word) :
    BitVec.ofNat 32 (a.toNat % 2 ^ (binary32.expBits + binary32.fracBits + 1)) = a :=
  BitVec.eq_of_toNat_eq ((Nat.mod_mod _ _).trans (Nat.mod_eq_of_lt a.isLt))

/-- Every finite single is a double, and comes back. -/
theorem cvtS2D_of_finite {a : Word} {n : Bool} {m : Nat} {e : Int} (h : valueS a = .finite n m e) :
    ∃ v m' e', cvtS2D a = some v ∧ valueD v = .finite n m' e' ∧ (m' : ℚ) * 2 ^ e' = m * 2 ^ e ∧ cvtD2S v = some a := by
  have hholds := FpFormat.holds_of_decode h
  have hlow : binary64.minExp ≤ e := le_trans (by decide) hholds.low
  have hfits : m < 2 ^ (binary64.fracBits + 1) := hholds.fits.trans (by decide)
  have hbound := (hholds.lt_overflowBound FpFormat.wide_binary32).trans_le overflowBound_binary32_le
  obtain ⟨m', e', hdec, hval⟩ := FpFormat.decode_round_exact (neg := n) FpFormat.wide_binary64 hlow hfits hbound
  have hvalue := (valueD_ofNat FpFormat.round_lt).trans hdec
  refine ⟨_, m', e', ?_, hvalue, hval, ?_⟩
  · rw [cvtS2D, h]
    rfl
  · rw [cvtD2S, hvalue, FpFormat.convert, hholds.round_eq hval, Option.map_some, ofNat_toNat_mod]

/-- Settles O46: an infinity is the infinity of its sign in either format, and a finite single is a double. -/
theorem singleToDoubleIsExact : Obligations.single_to_double_is_exact := by
  intro a hnan
  cases h : valueS a with
  | nan => exact absurd h hnan
  | inf n =>
    have hvalue : valueD (BitVec.ofNat 64 (binary64.infBits n)) = .inf n :=
      (valueD_ofNat FpFormat.infBits_lt).trans FpFormat.decode_infBits
    refine ⟨BitVec.ofNat 64 (binary64.infBits n), ?_, by rw [hvalue], by rw [hvalue], ?_⟩
    · rw [cvtS2D, h]
      rfl
    · rw [cvtD2S, hvalue, FpFormat.convert, FpFormat.infBits_of_decode h, Option.map_some, ofNat_toNat_mod]
  | finite n m e =>
    obtain ⟨v, m', e', hcvt, hvalue, hval, hback⟩ := cvtS2D_of_finite h
    refine ⟨v, hcvt, ?_, by rw [hvalue]; rfl, hback⟩
    rw [hvalue, FpValue.toRat_finite, FpValue.toRat_finite, hval]

/-! ### To an integer -/

theorem FpValue.abs_toRat_finite (n : Bool) (m : Nat) (e : Int) : |(FpValue.finite n m e).toRat| = m * 2 ^ e := by
  rw [FpValue.toRat_finite, abs_mul, abs_signRat, one_mul, abs_of_nonneg (by positivity)]

/-- The magnitude that `truncate` keeps is the floor of the value's. -/
theorem FpValue.floor_abs_toRat (n : Bool) (m : Nat) (e : Int) :
    ⌊|(FpValue.finite n m e).toRat|⌋₊ = m * 2 ^ e.toNat / 2 ^ (-e).toNat := by
  have hscaled := scaled_div m 1 e
  rw [Nat.cast_one, div_one, one_mul] at hscaled
  rw [FpValue.abs_toRat_finite, ← hscaled, Nat.floor_div_eq_div]

/-- The integer between zero and the value that is nearest to the value is its truncation. -/
theorem FpValue.truncate_eq {v : FpValue} {i : Int} (hfin : v.isFinite = true) (hle : |(i : ℚ)| ≤ |v.toRat|)
    (hlt : |v.toRat| < |(i : ℚ)| + 1) (hsign : 0 ≤ (i : ℚ) * v.toRat) : v.truncate = some i := by
  obtain ⟨n, m, e, rfl⟩ := FpValue.finite_of_isFinite hfin
  have habs : |(i : ℚ)| = i.natAbs := by rw [Nat.cast_natAbs, Int.cast_abs]
  rw [habs] at hle hlt
  have hfloor := (Nat.floor_eq_iff (abs_nonneg _)).mpr ⟨hle, hlt⟩
  rw [FpValue.floor_abs_toRat] at hfloor
  rw [truncate, hfloor]
  congr 1
  obtain rfl | hi := eq_or_ne i 0
  · cases n <;> rfl
  · have hpos : (0 : ℚ) < m * 2 ^ e := by
      rw [← FpValue.abs_toRat_finite n]
      exact lt_of_lt_of_le (by exact_mod_cast Int.natAbs_pos.mpr hi) hle
    rw [FpValue.toRat_finite, ← mul_assoc] at hsign
    have hsigned := nonneg_of_mul_nonneg_left hsign hpos
    cases n with
    | false =>
      rw [signRat_false, mul_one] at hsigned
      have : 0 ≤ i := by exact_mod_cast hsigned
      unfold signedMag
      simp only [Bool.false_eq_true, if_false]
      omega
    | true =>
      rw [signRat_true, mul_neg_one, neg_nonneg] at hsigned
      have : i ≤ 0 := by exact_mod_cast hsigned
      unfold signedMag
      simp only [if_true]
      omega

theorem FpValue.toInt32_truncatesTo (v : FpValue) : TruncatesTo v v.toInt32 where
  noValue h := by
    cases v with
    | nan => rfl
    | inf n => rfl
    | finite n m e => cases h
  truncated hfin i hle hlt hsign := by rw [toInt32, FpValue.truncate_eq hfin hle hlt hsign]

/-- Settles O48: the conversions of both formats truncate the value of their operand. -/
theorem conversionToIntegerTruncates : Obligations.conversion_to_integer_truncates :=
  ⟨FpValue.toInt32_truncatesTo, fun a => (valueS a).toInt32_truncatesTo, fun a => (valueD a).toInt32_truncatesTo⟩

/-! ### From an integer -/

/-- A 32-bit integer is a double. -/
theorem cvtI2D_finite (a : Word) : (valueD (cvtI2D a)).isFinite = true ∧ (valueD (cvtI2D a)).toRat = a.toInt := by
  have habs : a.toInt.natAbs ≤ 2 ^ 31 := by
    have := BitVec.le_toInt a
    have := BitVec.toInt_lt (x := a)
    omega
  have hbound : (a.toInt.natAbs : ℚ) * 2 ^ (0 : Int) < binary64.overflowBound := by
    rw [zpow_zero, mul_one]
    calc (a.toInt.natAbs : ℚ) ≤ 2 ^ 31 := by exact_mod_cast habs
      _ < 2 ^ 32 := by norm_num
      _ ≤ binary64.overflowBound := FpFormat.two_pow_le_overflowBound (by decide)
  obtain ⟨m, e, hdec, hval⟩ := FpFormat.decode_round_exact (neg := decide (a.toInt < 0)) FpFormat.wide_binary64
    (by decide) (habs.trans_lt (by decide)) hbound
  have hvalue : valueD (cvtI2D a) = .finite (decide (a.toInt < 0)) m e := (valueD_ofNat FpFormat.round_lt).trans hdec
  rw [hvalue, FpValue.toRat_finite, hval, zpow_zero, mul_one, signRat_natAbs]
  exact ⟨rfl, rfl⟩

/-- Settles O47: the double is the integer, so truncating it gives the integer back. -/
theorem integerToDoubleIsExact : Obligations.integer_to_double_is_exact := by
  intro a
  obtain ⟨hfin, hval⟩ := cvtI2D_finite a
  refine ⟨hval, ?_⟩
  have hback := (FpValue.toInt32_truncatesTo (valueD (cvtI2D a))).truncated hfin a.toInt
  rw [hval] at hback
  have hrange : -2 ^ 31 ≤ a.toInt ∧ a.toInt ≤ 2 ^ 31 - 1 := ⟨BitVec.le_toInt a, BitVec.toInt_le⟩
  rw [cvtD2I, hback le_rfl (lt_add_one _) (mul_self_nonneg _), if_pos hrange, BitVec.ofInt_toInt]

theorem cvtI2S_roundsTo (a : Word) : binary32.RoundsTo a.toInt (cvtI2S a).toNat := by
  have := FpFormat.wide_binary32.roundsTo_round_int a.toInt 0
  rw [zpow_zero, mul_one] at this
  rwa [cvtI2S, FpFormat.ofInt, FpFormat.toNat_ofNat_round (φ := binary32) (k := 32) rfl]

/-- A finite double rounded to a single keeps its sign, a zero's too. -/
theorem cvtD2S_of_finite {a : DWord} (hfin : (valueD a).isFinite = true) :
    ∃ v, cvtD2S a = some v ∧ binary32.RoundsTo (valueD a).toRat v.toNat ∧ v.msb = a.msb ∧
      ((valueD a).toRat = 0 → v.toNat = binary32.signBit a.msb) := by
  obtain ⟨n, m, e, h⟩ := FpValue.finite_of_isFinite hfin
  have hn : n = a.msb := FpFormat.msb_of_decode rfl h
  subst hn
  have hround := FpFormat.wide_binary32.roundsTo_round a.msb m one_pos e
  have hnat := FpFormat.toNat_ofNat_round (φ := binary32) (k := 32) rfl a.msb m 1 e
  rw [Nat.cast_one, div_one, ← FpValue.toRat_finite] at hround
  rw [cvtD2S, h]
  refine ⟨_, rfl, hnat.symm ▸ hround, FpFormat.msb_ofNat_round rfl, fun hzero => ?_⟩
  rw [hnat, FpFormat.round, if_pos ((FpValue.toRat_eq_zero_iff _ m e).mp hzero)]

/-- Settles O49: each is one rounding of its operand's value; a double's sign is the single's. -/
theorem conversionsToSingleAreRounded : Obligations.conversions_to_single_are_rounded := by
  refine ⟨fun a => ⟨fun hzero => ?_, cvtI2S_roundsTo a⟩, fun a => ⟨cvtD2S_of_finite, fun n h => ?_, fun h => ?_⟩⟩
  · rw [cvtI2S, hzero]
    rfl
  · refine ⟨BitVec.ofNat 32 (binary32.infBits n), by rw [cvtD2S, h]; rfl, ?_, ?_⟩
    · exact FpFormat.toNat_ofNat_of_lt rfl FpFormat.infBits_lt
    · exact ((FpFormat.sign_of_decode _ _ _).1 h).trans (FpFormat.isNegative_toNat (φ := binary64) rfl a)
  · rw [cvtD2S, h]
    rfl

end Sys2Proof.Machine
end

section
/-! PROOFS. Floating-point compares (44_floating_point.md R254): the order of the extended line. -/

namespace Sys2Proof.Machine

/-- A comparison in a linear order answers the relation of its points. -/
theorem relOrdering_cmp {α : Type} [LinearOrder α] (r : Rel) (x y : α) :
    relOrdering r (some (cmp x y)) = true ↔ relBetween r x y := by
  obtain h | h | h := lt_trichotomy x y
  · have hcmp : cmp x y = .lt := (cmp_eq_lt_iff ..).mpr h
    cases r <;> simp [relOrdering, relBetween, hcmp, h, h.ne, h.le, h.not_gt]
  · subst h
    cases r <;> simp [relOrdering, relBetween]
  · have hcmp : cmp x y = .gt := (cmp_eq_gt_iff ..).mpr h
    cases r <;> simp [relOrdering, relBetween, hcmp, h, h.ne', h.le, h.not_gt]

theorem relOrdering_none (r : Rel) : relOrdering r none = decide (r = .ne) := by cases r <;> rfl

theorem relOrdering_cmp_int (r : Rel) (i j : Int) : relOrdering r (some (cmp i j)) = relHolds r i j := by
  rw [Bool.eq_iff_iff, relOrdering_cmp]
  cases r <;> simp [relBetween]

namespace FpValue

@[simp] theorem compare_nan_left (v : FpValue) : FpValue.compare .nan v = none := rfl

@[simp] theorem compare_nan_right (v : FpValue) : v.compare .nan = none := by cases v <;> rfl

/-- Finite values compare as the rationals they are. -/
theorem compare_finite (n₁ n₂ : Bool) (m₁ m₂ : Nat) (e₁ e₂ : Int) :
    (FpValue.finite n₁ m₁ e₁).compare (.finite n₂ m₂ e₂) =
      some (cmp (FpValue.finite n₁ m₁ e₁).toRat (FpValue.finite n₂ m₂ e₂).toRat) := by
  have hmono : StrictMono fun i : Int => (i : ℚ) * 2 ^ min e₁ e₂ :=
    fun i j hij => mul_lt_mul_of_pos_right (by exact_mod_cast hij) (zpow_two_pos _)
  rw [toRat_scaled n₁ m₁ (min_le_left e₁ e₂), toRat_scaled n₂ m₂ (min_le_right e₁ e₂), hmono.cmp_map_eq]
  unfold compare
  dsimp only
  congr 1
  generalize signedMag n₁ _ = i
  generalize signedMag n₂ _ = j
  obtain h | h | h := lt_trichotomy i j
  · rw [if_pos h, (cmp_eq_lt_iff ..).mpr h]
  · rw [if_neg h.not_lt, if_pos h, (cmp_eq_eq_iff ..).mpr h]
  · rw [if_neg h.not_gt, if_neg h.ne', (cmp_eq_gt_iff ..).mpr h]

/-- Values that are no NaN compare as the points of the extended line they are. -/
theorem compare_extended {v w : FpValue} {x y : WithBot (WithTop ℚ)} (hv : v.extended = some x)
    (hw : w.extended = some y) : v.compare w = some (cmp x y) := by
  cases v with
  | nan => cases hv
  | inf a =>
    cases w with
    | nan => cases hw
    | inf b => cases a <;> cases b <;> cases hv <;> cases hw <;> simp [compare, cmp, cmpUsing]
    | finite m k f => cases a <;> cases hv <;> cases hw <;> simp [compare, cmp, cmpUsing]
  | finite n l e =>
    cases w with
    | nan => cases hw
    | inf b => cases b <;> cases hv <;> cases hw <;> simp [compare, cmp, cmpUsing]
    | finite m k f =>
      cases hv
      cases hw
      rw [compare_finite]
      have hmono : StrictMono fun q : ℚ => ((q : WithTop ℚ) : WithBot (WithTop ℚ)) :=
        WithBot.coe_strictMono.comp WithTop.coe_strictMono
      exact congrArg some (hmono.cmp_map_eq (finite n l e).toRat (finite m k f).toRat).symm

theorem extended_eq_none_iff {v : FpValue} : v.extended = none ↔ v = .nan := by
  cases v with
  | nan => simp [extended]
  | inf n => cases n <;> simp [extended]
  | finite n m e => simp [extended]

theorem comparesAs (r : Rel) (v w : FpValue) : ComparesAs r v w (relOrdering r (v.compare w)) where
  unordered h := by
    obtain h | h := h
    · rw [extended_eq_none_iff.mp h, compare_nan_left, relOrdering_none]
    · rw [extended_eq_none_iff.mp h, compare_nan_right, relOrdering_none]
  ordered x y hx hy := by
    rw [compare_extended hx hy]
    exact relOrdering_cmp r x y

theorem relOrdering_compare {v w : FpValue} (hv : v.isFinite = true) (hw : w.isFinite = true) (r : Rel)
    {_ : Decidable (relBetween r v.toRat w.toRat)} :
    relOrdering r (v.compare w) = decide (relBetween r v.toRat w.toRat) := by
  obtain ⟨n₁, m₁, e₁, rfl⟩ := finite_of_isFinite hv
  obtain ⟨n₂, m₂, e₂, rfl⟩ := finite_of_isFinite hw
  rw [Bool.eq_iff_iff, decide_eq_true_iff, compare_finite]
  exact relOrdering_cmp r _ _

end FpValue

/-- Settles O41: the compares of both formats are relations of the values' order; an infinity compares with a finite
value as 0 and 1 do. -/
theorem compareSemantics : Obligations.compare_semantics := by
  refine ⟨fun r a b => FpValue.comparesAs r _ _, fun r a b => FpValue.comparesAs r _ _, fun r v => ⟨?_, ?_⟩,
    fun v w hv hw => ?_, fun r v hv => ?_, fun r => ?_⟩
  · exact relOrdering_none r
  · rw [FpValue.compare_nan_right]
    exact relOrdering_none r
  · exact ⟨FpValue.relOrdering_compare hv hw .eq, FpValue.relOrdering_compare hv hw .ne,
      FpValue.relOrdering_compare hv hw .lt, FpValue.relOrdering_compare hv hw .gt,
      FpValue.relOrdering_compare hv hw .le, FpValue.relOrdering_compare hv hw .ge⟩
  · obtain ⟨n, m, e, rfl⟩ := FpValue.finite_of_isFinite hv
    rw [← relOrdering_cmp_int, ← relOrdering_cmp_int]
    exact ⟨rfl, rfl, rfl, rfl⟩
  · rw [← relOrdering_cmp_int, ← relOrdering_cmp_int, ← relOrdering_cmp_int]
    exact ⟨rfl, rfl, fun n => by cases n <;> rfl⟩

end Sys2Proof.Machine
end

section
/-! PROOFS. The draws among the NaN patterns (44_floating_point.md R252), bit by bit. -/

namespace Sys2Proof.Machine

namespace FpFormat

variable {φ : FpFormat} {bits : Nat}

theorem maxField_iff : bits / 2 ^ φ.fracBits % 2 ^ φ.expBits = φ.maxField ↔
    ∀ i < φ.expBits, bits.testBit (φ.fracBits + i) = true := by
  have hbit : ∀ i, (bits / 2 ^ φ.fracBits % 2 ^ φ.expBits).testBit i =
      (decide (i < φ.expBits) && bits.testBit (φ.fracBits + i)) := by
    intro i
    rw [Nat.testBit_mod_two_pow, Nat.testBit_div_two_pow, Nat.add_comm]
  constructor
  · intro h i hi
    have := hbit i
    rw [h, maxField, Nat.testBit_two_pow_sub_one, decide_eq_true hi] at this
    exact this.symm
  · intro h
    refine Nat.eq_of_testBit_eq fun i => ?_
    rw [hbit, maxField, Nat.testBit_two_pow_sub_one]
    by_cases hi : i < φ.expBits
    · simp [hi, h i hi]
    · simp [hi]

/-- A NaN has all ones in the exponent field and some one in the fraction. -/
theorem decode_eq_nan_iff : φ.decode bits = .nan ↔
    (∀ i < φ.expBits, bits.testBit (φ.fracBits + i) = true) ∧ bits % 2 ^ φ.fracBits ≠ 0 := by
  rw [← maxField_iff]
  unfold decode
  dsimp only
  split
  · split <;> simp_all
  · split <;> simp_all

theorem testBit_maxField_mul (φ : FpFormat) (j : Nat) : (φ.maxField * 2 ^ φ.fracBits).testBit j =
    (decide (φ.fracBits ≤ j) && decide (j - φ.fracBits < φ.expBits)) := by
  rw [Nat.testBit_mul_two_pow, maxField, Nat.testBit_two_pow_sub_one]

theorem or_maxField_of_nan (h : φ.decode bits = .nan) : bits ||| φ.maxField * 2 ^ φ.fracBits = bits := by
  refine Nat.eq_of_testBit_eq fun j => ?_
  rw [Nat.testBit_or, testBit_maxField_mul]
  by_cases hj : φ.fracBits ≤ j ∧ j - φ.fracBits < φ.expBits
  · have hbit := (decode_eq_nan_iff.mp h).1 (j - φ.fracBits) hj.2
    rw [Nat.add_sub_cancel' hj.1] at hbit
    simp [hbit]
  · rw [← Bool.decide_and, decide_eq_false hj, Bool.or_false]

/-- A draw brought into the NaN patterns by two masks, of the exponent field and of the fraction (log 9). -/
def nanPattern {k : Nat} (field frac raw : BitVec k) : BitVec k :=
  let v := raw ||| field
  if v &&& frac = 0#k then v ||| 1#k else v

section NanPattern

variable {k : Nat} {field frac : BitVec k} (hfield : field.toNat = φ.maxField * 2 ^ φ.fracBits)
  (hfrac : frac.toNat = 2 ^ φ.fracBits - 1)

include hfrac in
theorem and_frac_eq_zero_iff (v : BitVec k) : v &&& frac = 0#k ↔ v.toNat % 2 ^ φ.fracBits = 0 := by
  rw [← BitVec.toNat_inj, BitVec.toNat_and, hfrac, Nat.and_two_pow_sub_one_eq_mod]
  rfl

include hfield hfrac

theorem nanPattern_isNan (hw : φ.Wide) (hk : 0 < k) (raw : BitVec k) :
    φ.decode (nanPattern field frac raw).toNat = .nan := by
  have hones : ∀ n, ∀ i < φ.expBits,
      (raw.toNat ||| φ.maxField * 2 ^ φ.fracBits ||| n).testBit (φ.fracBits + i) = true := by
    intro n i hi
    simp [testBit_maxField_mul, hi]
  rw [decode_eq_nan_iff, nanPattern]
  split
  case isTrue =>
    rw [BitVec.toNat_or, BitVec.toNat_or, hfield, BitVec.toNat_ofNat, Nat.mod_eq_of_lt (Nat.one_lt_two_pow hk.ne')]
    refine ⟨hones 1, fun hzero => ?_⟩
    have hodd := congrArg (·.testBit 0) hzero
    have hpos := hw.frac
    simp at hodd
    omega
  case isFalse h =>
    refine ⟨?_, fun hzero => h ((and_frac_eq_zero_iff hfrac _).mpr hzero)⟩
    rw [BitVec.toNat_or, hfield, ← Nat.or_zero (_ ||| _)]
    exact hones 0

theorem nanPattern_of_nan {v : BitVec k} (h : φ.decode v.toNat = .nan) : nanPattern field frac v = v := by
  have hor : v ||| field = v := by
    apply BitVec.eq_of_toNat_eq
    rw [BitVec.toNat_or, hfield, or_maxField_of_nan h]
  rw [nanPattern, hor]
  exact if_neg fun hzero => (decode_eq_nan_iff.mp h).2 ((and_frac_eq_zero_iff hfrac v).mp hzero)

end NanPattern

end FpFormat

theorem valueS_nanPatternS (raw : Word) : valueS (nanPatternS raw) = .nan :=
  FpFormat.nanPattern_isNan (φ := binary32) rfl rfl FpFormat.wide_binary32 (by decide) raw

theorem valueD_nanPatternD (raw : DWord) : valueD (nanPatternD raw) = .nan :=
  FpFormat.nanPattern_isNan (φ := binary64) rfl rfl FpFormat.wide_binary64 (by decide) raw

/-- Settles O50: a draw is a NaN, and a NaN drawn is itself. -/
theorem nanDraws : Obligations.nan_draws :=
  ⟨valueS_nanPatternS, fun _ h => FpFormat.nanPattern_of_nan (φ := binary32) rfl rfl h, valueD_nanPatternD,
    fun _ h => FpFormat.nanPattern_of_nan (φ := binary64) rfl rfl h⟩

end Sys2Proof.Machine
end

section
/-! PROOFS. The floating-point instructions (44_floating_point.md R253 to R281): each is one write of what the run's
record FP has of its operands. -/

namespace Sys2Proof.Machine

open Sys2Proof.Config

/-- A single is the result, or a NaN where there is none (R252). -/
def SingleOrNan (result : Option Word) (v : Word) : Prop :=
  match result with
  | some w => v = w
  | none => valueS v = .nan

/-- A double is the result, or a NaN where there is none (R252). -/
def DoubleOrNan (result : Option DWord) (v : DWord) : Prop :=
  match result with
  | some w => v = w
  | none => valueD v = .nan

section Writes

variable (rd : FReg) (s : State)

theorem writeFprOrNan_completes (o : Option Word) :
    ∃ t, writeFprOrNan rd o s = .next t ∧ FprFrame rd s t ∧ SingleOrNan o (t.fpr rd) := by
  cases o with
  | some v =>
    have h := fprResult_setFpr rd v s
    exact ⟨_, rfl, h.toFprFrame, h.value⟩
  | none =>
    have h := fprResult_setFpr_draw rd (nanPatternS (nanSingle s.draws)) s
    exact ⟨_, rfl, h.toFprFrame, (congrArg valueS h.value).trans (valueS_nanPatternS _)⟩

theorem writeDblOrNan_completes (o : Option DWord) :
    ∃ t, writeDblOrNan rd o s = .next t ∧ DblFrame rd s t ∧ DoubleOrNan o (t.fpr rd ++ t.fpr (rd + 1#5)) := by
  cases o with
  | some v =>
    have h := dblResult_setDbl rd v s
    exact ⟨_, rfl, h.toDblFrame, h.pair⟩
  | none =>
    have h := dblResult_setDbl_draw rd (nanPatternD (nanDouble s.draws)) s
    exact ⟨_, rfl, h.toDblFrame, (congrArg valueD h.pair).trans (valueD_nanPatternD _)⟩

theorem writeFprOrDraw_completes (o : Option Word) :
    ∃ t, writeFprOrDraw rd o s = .next t ∧ FprFrame rd s t ∧ ∀ v, o = some v → t.fpr rd = v := by
  cases o with
  | some v =>
    have h := fprResult_setFpr rd v s
    refine ⟨_, rfl, h.toFprFrame, fun w hw => ?_⟩
    cases hw
    exact h.value
  | none => exact ⟨_, rfl, (fprResult_setFpr_draw rd (convertDraw s.draws) s).toFprFrame, fun _ hw => nomatch hw⟩

end Writes

theorem writeCompare_completes (c : Bool) (s : State) : ∃ t, writeCompare c s = .next t ∧ CompareResult c s t :=
  ⟨_, rfl, compareResult_setFpsrC c s⟩

/-- Settles O37: each is one write of the record's result. -/
theorem singleArithmetic : Obligations.single_arithmetic := by
  intro s rd rs1 rs2
  refine ⟨fun h => ?_, writeFprOrNan_completes rd s _, writeFprOrNan_completes rd s _, writeFprOrNan_completes rd s _,
    writeFprOrNan_completes rd s _⟩
  rw [State.numerics_ieee754 h]
  exact ⟨rfl, rfl, rfl, rfl⟩

/-- Settles O38: each is one write of the record's result to a pair. -/
theorem doubleArithmetic : Obligations.double_arithmetic := by
  intro s rd rs1 rs2
  refine ⟨fun h => ?_, writeDblOrNan_completes rd s _, writeDblOrNan_completes rd s _, writeDblOrNan_completes rd s _,
    writeDblOrNan_completes rd s _⟩
  rw [State.numerics_ieee754 h]
  exact ⟨rfl, rfl, rfl, rfl⟩

/-- Settles O39: each is one write of the record's result, in the format it converts to. -/
theorem conversions : Obligations.conversions := by
  intro s rd rs1
  refine ⟨fun h => ?_, writeDblOrNan_completes rd s _, writeFprOrNan_completes rd s _, writeFprOrDraw_completes rd s _,
    writeFprOrDraw_completes rd s _, ⟨_, rfl, fprResult_setFpr rd _ s⟩, ⟨_, rfl, dblResult_setDbl rd _ s⟩⟩
  rw [State.numerics_ieee754 h]
  exact ⟨rfl, rfl, rfl, rfl, rfl, rfl⟩

/-- Settles O40: each is one write of the record's answer to fpsr.c. -/
theorem compares : Obligations.compares := by
  intro s rs1 rs2
  refine ⟨fun h => ?_, writeCompare_completes _ s, writeCompare_completes _ s, writeCompare_completes _ s,
    writeCompare_completes _ s, writeCompare_completes _ s, writeCompare_completes _ s, writeCompare_completes _ s,
    writeCompare_completes _ s, writeCompare_completes _ s, writeCompare_completes _ s, writeCompare_completes _ s,
    writeCompare_completes _ s⟩
  rw [State.numerics_ieee754 h]
  exact ⟨rfl, rfl⟩

end Sys2Proof.Machine
end

section
/-! PROOFS. Which faults an instruction raises (60_exceptions.md R338), where loads and stores stop (R321), the
instructions that are not implemented (R324), and TRAP (R326, R327). -/

namespace Sys2Proof.Machine

open Sys2Proof.Config

/-! ### The faults of an access (20_memory.md R63, R64) -/

section AccessFaults

variable {i : Instr} {s : State} {addr : Word} {n : Nat} {f : Fault} {rs1 : GReg} {imm16 : Imm16}

/-- The checks of an access raise AddressMisaligned, where it is misaligned, or AccessFault. -/
theorem checkAccess_error_cases (h : s.checkAccess addr n = .error f) :
    (f = .addressMisaligned addr n ∧ addr.toNat % n ≠ 0) ∨ f = .accessFault addr n := by
  unfold State.checkAccess at h
  split at h
  case isTrue hmis =>
    cases h
    exact .inl ⟨rfl, hmis⟩
  case isFalse =>
    split at h
    case isTrue => cases h
    case isFalse =>
      cases h
      exact .inr rfl

/-- Reading bytes raises UnwrittenRead alone. -/
theorem readBytes_error {a : Nat} (h : s.readBytes a n = .error f) : ∃ w, f = .unwrittenRead w := by
  induction n generalizing a with
  | zero => cases h
  | succ n ih =>
    unfold State.readBytes at h
    split at h
    · cases h
      exact ⟨_, rfl⟩
    · split at h
      · cases h
      · rename_i hrest
        cases h
        exact ih hrest

/-- What the checks raise is listed for every load and store of that width: one byte is never misaligned. -/
theorem mayRaise_of_checkAccess_error
    (hi : loadAccess i = some (rs1, imm16, n) ∨ storeAccess i = some (rs1, imm16, n))
    (h : s.checkAccess addr n = .error f) : mayRaise i f := by
  obtain ⟨rfl, hmis⟩ | rfl := checkAccess_error_cases h
  · have hn : n ≠ 1 := by
      rintro rfl
      exact hmis (Nat.mod_one _)
    exact ⟨hn, rs1, imm16, hi⟩
  · exact ⟨rs1, imm16, hi⟩

/-- What MemRead raises is listed for the load. -/
theorem mayRaise_of_memRead_error (hl : loadAccess i = some (rs1, imm16, n)) (h : s.memRead addr n = .error f) :
    mayRaise i f := by
  cases hcheck : s.checkAccess addr n with
  | error g =>
    cases (memRead_of_checkAccess_error hcheck).symm.trans h
    exact mayRaise_of_checkAccess_error (.inl hl) hcheck
  | ok u =>
    rw [State.memRead, hcheck] at h
    obtain ⟨w, rfl⟩ := readBytes_error h
    exact Option.isSome_of_eq_some hl

/-- What MemWrite raises is listed for the store. -/
theorem mayRaise_of_memWrite_error {bs : List Byte} (hs : storeAccess i = some (rs1, imm16, bs.length))
    (h : s.memWrite addr bs = .error f) : mayRaise i f := by
  cases hcheck : s.checkAccess addr bs.length with
  | error g =>
    cases (memWrite_of_checkAccess_error hcheck).symm.trans h
    exact mayRaise_of_checkAccess_error (.inr hs) hcheck
  | ok u =>
    by_cases htext : OutsideText s addr bs.length
    · cases ((memWrite_ok_iff ..).mpr ⟨hcheck, htext, rfl⟩).symm.trans h
    · cases (memWrite_of_text hcheck htext).symm.trans h
      exact ⟨rs1, imm16, hs⟩

end AccessFaults

/-! ### Loads and stores that stop (60_exceptions.md R321) -/

section AccessStops

variable {i : Instr} {s : State} {rs1 : GReg} {imm16 : Imm16} {n : Nat} {f : Fault}

/-- A load stops with the fault of its MemRead. -/
theorem exec_load_of_memRead_error (h : loadAccess i = some (rs1, imm16, n))
    (he : s.memRead (effectiveAddress s rs1 imm16) n = .error f) : exec i s = .fault f := by
  cases i
  case lb | lbu | lh | lhu | lw | lf | ld =>
    cases h
    exact (load_fault_iff ..).mpr he
  all_goals cases h

/-- A store stops with the fault of its MemWrite. -/
theorem exec_store_of_memWrite_error (h : storeAccess i = some (rs1, imm16, n))
    (he : s.memWrite (effectiveAddress s rs1 imm16) (storedBytes s i) = .error f) : exec i s = .fault f :=
  (exec_eq_store h).trans ((store_fault_iff ..).mpr he)

end AccessStops

/-- Settles O18: a load stops where its MemRead does. -/
theorem loadFaults : Obligations.load_faults := by
  intro i s rs1 imm16 n hl
  refine ⟨fun hmis => ?_, fun ha hm => ?_, fun ha hm k hk hnone hbefore => ?_⟩
  · exact exec_load_of_memRead_error hl (memRead_of_checkAccess_error (checkAccess_misaligned hmis))
  · exact exec_load_of_memRead_error hl (memRead_of_checkAccess_error (checkAccess_not_mapped ha hm))
  · have hok := checkAccess_ok (loadAccess_width hl) ha hm
    exact exec_load_of_memRead_error hl (memRead_of_unwritten hok hk hnone hbefore)

/-- Settles O20: a store stops where its MemWrite does. -/
theorem storeFaults : Obligations.store_faults := by
  intro i s rs1 imm16 n hs
  have hwidth := storeAccess_width hs
  obtain rfl := storedBytes_length (s := s) hs
  refine ⟨fun hmis => ?_, fun ha hm => ?_, fun ha hm ht => ?_⟩
  · exact exec_store_of_memWrite_error hs (memWrite_of_checkAccess_error (checkAccess_misaligned hmis))
  · exact exec_store_of_memWrite_error hs (memWrite_of_checkAccess_error (checkAccess_not_mapped ha hm))
  · exact exec_store_of_memWrite_error hs (memWrite_of_text (checkAccess_ok hwidth ha hm) ht)

/-! ### TRAP (60_exceptions.md R326, R327) -/

section Traps

variable {s : State} {off26 : Off26}

/-- TRAP 0 sets the status. -/
theorem exec_trap_zero (s : State) : exec (.trap 0#26) s = .next (s.setStatus .final) := rfl

theorem trapNumber_eq_zero_iff : trapNumber off26 = 0 ↔ off26 = 0#26 :=
  ⟨fun h => BitVec.eq_of_toNat_eq h, fun h => h ▸ rfl⟩

/-- TRAP n, n not 0, asks the host, and faults where it has no answer. -/
theorem exec_trap_of_ne_zero (h : off26 ≠ 0#26) : exec (.trap off26) s =
    (hostTrap off26.toNat s.advance).elim (.fault (.unhandledTrap off26.toNat)) .next := by
  have hn : trapNumber off26 ≠ 0 := mt trapNumber_eq_zero_iff.mp h
  rw [exec, execTrap, if_neg hn, trapNumber]
  cases hostTrap off26.toNat s.advance <;> rfl

theorem hostTrap_of_undefined {n : Nat} (h : s.params.trapHandler = .undefined) : hostTrap n s = none := by
  rw [hostTrap, h]

theorem hostTrap_of_host {n : Nat} (h : s.params.trapHandler = .host) :
    hostTrap n s = (trapHandler n s).map fun cs => (s.applyHostAll cs).nextDraw := by
  rw [hostTrap, h]

/-- Without the host, only TRAP 0 changes the run status (R326). -/
theorem Effect.status_eq {i : Instr} {t : State} (e : Effect i s t)
    (hno : isTrap i = false ∨ s.params.trapHandler = .undefined) (hi : i ≠ .trap 0#26) : t.status = s.status := by
  cases e with
  | store _ _ _ _ _ hw =>
    obtain rfl := memWrite_eq_writeBytes hw
    simp
  | final h => exact absurd h hi
  | host cs h hp => exact absurd ⟨h, hp⟩ (not_host hno)
  | _ => rfl

end Traps

/-- Settles O35: TRAP 0 is one write of the status. -/
theorem trapZeroEndsTheRun : Obligations.trap_zero_ends_the_run := fun s =>
  ⟨_, exec_trap_zero s, State.setStatus_status s _, State.setStatus_pc s _, State.setStatus_gpr s _,
    State.setStatus_fpr s _, State.setStatus_fpsrC s _, State.setStatus_readByte s _, State.setStatus_params s _,
    State.setStatus_draws s _⟩

/-- Settles O36, by whether the host gives a handler, and then by what it answers. -/
theorem otherTraps : Obligations.other_traps := by
  intro s off26 h
  rw [exec_trap_of_ne_zero h]
  refine ⟨fun hp => ?_, fun hp => ?_⟩
  · rw [hostTrap_of_undefined (s := s.advance) hp]
    rfl
  · rw [hostTrap_of_host (s := s.advance) hp, State.advance]
    cases trapHandler off26.toNat { s with pc := s.pc + 4#32 } <;> rfl

/-- Settles O56: a step is one instruction, and without the host TRAP 0 alone leaves the status other than running. -/
theorem onlyTrapZeroEndsARun : Obligations.only_trap_zero_ends_a_run := by
  intro s t hno hstep
  obtain ⟨hrun, i, hfetch, hexec⟩ := (step_next_iff s t).mp hstep
  by_cases hi : i = .trap 0#26
  · subst hi
    cases (exec_trap_zero s).symm.trans hexec
    exact .inr ⟨State.setStatus_status s _, hfetch⟩
  · exact .inl (((exec_effect hexec).status_eq (.inr hno) hi).trans hrun)

/-! ### The instructions that are not implemented (60_exceptions.md R324) -/

/-- Settles O23: the three are well-formed, so their words decode to them; each is one raised fault. -/
theorem notImplemented : Obligations.not_implemented := fun _ _ _ _ =>
  ⟨decodeWord_encode _ rfl, decodeWord_encode _ rfl, decodeWord_encode _ rfl, rfl, rfl, rfl⟩

/-! ### The faults listed for an instruction (60_exceptions.md R338) -/

/-- The answer is a next state or one of the faults, and no refusal. -/
def RaisesOnly (P : Fault → Prop) : Result → Prop
  | .next _ => True
  | .fault f => P f
  | .refused _ => False

theorem raisesOnly_iff (P : Fault → Prop) (r : Result) :
    RaisesOnly P r ↔ (∀ f, r = .fault f → P f) ∧ ∀ q, r ≠ .refused q := by
  cases r <;> simp [RaisesOnly]

section Endings

variable {P : Fault → Prop} {s : State} {r : Result}

/-- What completes raises nothing. -/
theorem RaisesOnly.of_completes {Q : State → Prop} (h : ∃ t, r = .next t ∧ Q t) : RaisesOnly P r := by
  obtain ⟨t, rfl, -⟩ := h
  trivial

theorem raisesOnly_writeSigned (rd : GReg) (k : Int) (h : P .integerOverflow) :
    RaisesOnly P (writeSigned rd k s) := by
  unfold writeSigned writeGprChecked
  cases hv : ovfS s.params.ovfPolicy k with
  | ok w => trivial
  | error f =>
    obtain rfl := ovfS_error hv
    exact h

theorem raisesOnly_division {c : Prop} [Decidable c] (h0 : P .divideByZero) (h : RaisesOnly P r) :
    RaisesOnly P (if c then raise .divideByZero else r) := by
  split
  · exact h0
  · exact h

theorem raisesOnly_load {addr : Word} {n : Nat} {write : List Byte → State}
    (h : ∀ f, s.memRead addr n = .error f → P f) : RaisesOnly P (load addr n write s) := by
  unfold load
  cases hread : s.memRead addr n with
  | ok bs => trivial
  | error f => exact h f hread

theorem raisesOnly_store {addr : Word} {bs : List Byte} (h : ∀ f, s.memWrite addr bs = .error f → P f) :
    RaisesOnly P (store addr bs s) := by
  unfold store
  cases hwrite : s.memWrite addr bs with
  | ok t => trivial
  | error f => exact h f hwrite

theorem raisesOnly_trap (off26 : Off26) (h : off26 ≠ 0#26 → P (.unhandledTrap off26.toNat)) :
    RaisesOnly P (exec (.trap off26) s) := by
  by_cases h0 : off26 = 0#26
  · subst h0
    trivial
  · rw [exec_trap_of_ne_zero h0]
    cases hostTrap off26.toNat s.advance with
    | none => exact h h0
    | some t => trivial

end Endings

/-- An instruction completes or raises a fault listed for it, by the ending it shares with others of its shape. -/
theorem exec_raisesOnly (i : Instr) (s : State) : RaisesOnly (mayRaise i) (exec i s) := by
  cases i
  case lb | lbu | lh | lhu | lw | lf | ld => exact raisesOnly_load fun _ => mayRaise_of_memRead_error rfl
  case sb | sh | sw | sf | sd => exact raisesOnly_store fun _ => mayRaise_of_memWrite_error rfl
  case movi2s | movs2i => exact ⟨_, _, rfl⟩
  case rfe => exact ⟨_, rfl⟩
  case add => exact raisesOnly_writeSigned _ _ (.inl ⟨_, _, _, .inl rfl⟩)
  case sub => exact raisesOnly_writeSigned _ _ (.inl ⟨_, _, _, .inr (.inl rfl)⟩)
  case mult => exact raisesOnly_writeSigned _ _ (.inl ⟨_, _, _, .inr (.inr (.inl rfl))⟩)
  case addi => exact raisesOnly_writeSigned _ _ (.inr ⟨_, _, _, .inl rfl⟩)
  case subi => exact raisesOnly_writeSigned _ _ (.inr ⟨_, _, _, .inr rfl⟩)
  case div =>
    refine raisesOnly_division ⟨_, _, _, .inl rfl⟩ (raisesOnly_writeSigned _ _ ?_)
    exact .inl ⟨_, _, _, .inr (.inr (.inr rfl))⟩
  case divu => exact raisesOnly_division ⟨_, _, _, .inr rfl⟩ (.of_completes (writeGpr_completes _))
  case trap off26 =>
    exact raisesOnly_trap off26 fun h => ⟨mt trapNumber_eq_zero_iff.mp h, off26, rfl, rfl⟩
  case addf | subf | multf | divf | cvtd2f => exact .of_completes (writeFprOrNan_completes _ s _)
  case addd | subd | multd | divd | cvtf2d => exact .of_completes (writeDblOrNan_completes _ s _)
  case cvtf2i | cvtd2i => exact .of_completes (writeFprOrDraw_completes _ s _)
  -- the others answer a next state by their definition
  all_goals exact trivial

/-- Settles O9, instruction by instruction. -/
theorem onlyListedFaults : Obligations.only_listed_faults :=
  fun i s => (raisesOnly_iff (mayRaise i) (exec i s)).mp (exec_raisesOnly i s)

end Sys2Proof.Machine
end

section
/-! PROOFS. What a step is (70_reset_and_hazards.md R357), what it answers from a running state, and the jump to itself
(R361). -/

namespace Sys2Proof.Machine

open Sys2Proof.Config

/-! ### The word of `j` to itself under every ENC (00_scope.md R12) -/

/-- A word that bears a number the source fixes means under every legal ENC what it means under the default. -/
theorem decodeWith_of_fixed {enc : Enc} (he : encLegal enc = true) {c : OpCode} (hc : ⟨c, c⟩ ∈ fixedLines) {w : Word}
    (hw : hasCode c w = true) : decodeWith enc w = decodeWord w := by
  cases enc with
  | standard => rfl
  | table ls =>
    obtain ⟨hapart, -, -, hfixed⟩ := (encLegal_table_iff ls).mp he
    have hfind := find_line hapart (hfixed _ hc) hw
    have hword : toDefaultWord (.table ls) w = some w := by
      rw [toDefaultWord, hfind, Option.map_some, putCode_of_hasCode hw]
    rw [decodeWith, hword]

/-- The number of J is fixed. -/
theorem decodeWith_j {enc : Enc} (he : encLegal enc = true) (off26 : Off26) :
    decodeWith enc (packJ 0x02#6 off26) = .ok (.j off26) := by
  have hfixed : (⟨.primary 0x02#6, .primary 0x02#6⟩ : EncLine) ∈ fixedLines := by decide
  rw [decodeWith_of_fixed he hfixed (by simp [hasCode])]
  exact decodeWord_encode (.j off26) rfl

theorem decodeBytesWith_selfJump {enc : Enc} (he : encLegal enc = true) :
    decodeBytesWith enc [0x08#8, 0x00#8, 0x00#8, 0x00#8] = .ok (.j 0#26, []) := by
  have hbytes : [0x08#8, 0x00#8, 0x00#8, 0x00#8] = beBytes 4 (packJ 0x02#6 0#26) ++ [] := by decide
  rw [hbytes, decodeBytesWith_beBytes, decodeWith_j he]
  rfl

/-! ### One step (R357) -/

/-- Four bytes that decode hold the word of the instruction. -/
theorem decodeWith_of_decodeBytesWith {enc : Enc} {bs rest : List Byte} {i : Instr} (hlen : bs.length = 4)
    (h : decodeBytesWith enc bs = .ok (i, rest)) : decodeWith enc (beValue 32 bs) = .ok i := by
  match bs, hlen with
  | [b0, b1, b2, b3], _ =>
    rw [decodeBytesWith] at h
    cases hd : decodeWith enc (beValue 32 [b0, b1, b2, b3]) with
    | error e =>
      rw [hd] at h
      cases h
    | ok j =>
      rw [hd] at h
      cases h
      rfl

/-- A running state whose fetch and decoding succeed executes the instruction. -/
theorem step_of_fetchInstr_ok {s : State} {i : Instr} (hrun : s.status = .running) (h : s.fetchInstr = .ok i) :
    step s = exec i s := by
  rw [step, hrun, h]

/-- Settles O5: the four bytes are the word fetched, and its decoding the instruction that step executes. -/
theorem stepRunsTheDecodedInstruction : Obligations.step_runs_the_decoded_instruction := by
  intro s bs rest i hrun ha ht hlen hbytes hdecode
  have hfetch : s.fetch = .ok (beValue 32 bs) := (fetch_ok_iff s _).mpr ⟨ha, ht, bs, hlen, hbytes, rfl⟩
  exact step_of_fetchInstr_ok hrun
    ((fetchInstr_ok_iff s i).mpr ⟨_, hfetch, decodeWith_of_decodeBytesWith hlen hdecode⟩)

/-! ### Progress (R361) -/

/-- A fetch that fails is a fault; what is decoded completes or raises a fault listed for it. -/
theorem step_next_or_fault {s : State} (hrun : s.status = .running) :
    (∃ t, step s = .next t) ∨ ∃ f, step s = .fault f := by
  cases hi : s.fetchInstr with
  | error f => exact .inr ⟨f, step_of_fetchInstr_error hrun hi⟩
  | ok i =>
    rw [step_of_fetchInstr_ok hrun hi]
    cases hexec : exec i s with
    | next t => exact .inl ⟨t, rfl⟩
    | fault f => exact .inr ⟨f, rfl⟩
    | refused r => exact absurd hexec ((onlyListedFaults i s).2 r)

/-- The target of J with offset 0 is its own address. -/
theorem exec_j_zero (s : State) : exec (.j 0#26) s = .next s := by
  have htarget : jumpTarget s 0#26 = s.pc := BitVec.add_zero s.pc
  calc exec (.j 0#26) s = .next (s.jump (jumpTarget s 0#26)) := rfl
    _ = .next s := by rw [htarget, State.jump]

/-- On any machine, a state that a step leaves as it is runs for ever. -/
theorem run_of_step_self {M : Host.Core} {s : M.State} (h : M.step s = .next s) (k : Nat) : M.run k s = .next s := by
  induction k with
  | zero => rfl
  | succ k ih =>
    rw [Host.Core.run, h]
    exact ih

/-- Settles O7: only an execution could refuse, and none does; the jump to itself is a step that changes nothing. -/
theorem runningStatesProgress : Obligations.running_states_progress := by
  refine ⟨fun s hrun => step_next_or_fault hrun, fun s k hrun he ha ht hbytes => ?_⟩
  have hstep : step s = exec (.j 0#26) s :=
    stepRunsTheDecodedInstruction s _ [] _ hrun ha ht rfl hbytes (decodeBytesWith_selfJump he)
  exact run_of_step_self (M := Sys2Proof.core) (hstep.trans (exec_j_zero s)) k

end Sys2Proof.Machine
end
